-- ==== Sys2Proof/Word.lean ====
section
/-! DEFINITION. The plain types of the WTC832: bytes, bus addresses, port numbers, slot numbers, generations,
select codes, and the arrays of a fixed number of like things. -/

namespace Sys2Proof

/-- One byte of the command window (R197). -/
abbrev Byte := BitVec 8

/-- A shared-bus address A[15:0] (R139, R200). -/
abbrev Address := BitVec 16

/-- A master port, P0 to P7 (R123). -/
abbrev Port := Fin 8

/-- A position of the Reservation Table, S0 to S31 (R1). -/
abbrev Slot := Fin 32

/-- A slot's count of retirements, 0 to 2047 (R1, R8). -/
abbrev Generation := Fin 2048

/-- A select code, 0 to 3 (R73, R78). -/
abbrev SelCode := Fin 4

/-- One of the six rotation groups in the order of R87: 0 is tier 1, 1 to 4 are tier 2 groups 3 to 0, 5 is tier 3. -/
abbrev Group := Fin 6

/-- P0 to P7, ascending. -/
def allPorts : List Port := List.finRange 8

/-- S0 to S31, ascending. -/
def allSlots : List Slot := List.finRange 32

/-- Item `i` of a bank of `n` like things. -/
def bankGet {α : Type} {n : Nat} (v : Vector α n) (i : Fin n) : α := v.get i

/-- The bank with item `i` replaced. -/
def bankSet {α : Type} {n : Nat} (v : Vector α n) (i : Fin n) (x : α) : Vector α n := v.set i.val x i.isLt

/-- The bank with every item changed by its number and its value. -/
def bankMap {α β : Type} {n : Nat} (f : Fin n → α → β) (v : Vector α n) : Vector β n :=
  Vector.ofFn fun i => f i (bankGet v i)

end Sys2Proof
end

