-- ==== Sys2Proof/Syntax.lean ====
section
/-! DEFINITION. The commands of the block: one constructor per row of spec/opcode_table.json. A take (`takeOpen` and
the like) has no operand: the Command Unit takes the oldest queued port and reads that port's captured record (R147). -/

namespace Sys2Proof

/-- The commands, in the table's order. -/
inductive Instr where
  /-- RESET_ASSERT: RST# goes low (R125). -/
  | resetAssert
  /-- RESET_RELEASE: RST# goes high, with the SUP[2:0] and WB[3:0] strap levels (R124, R125, R139). -/
  | resetRelease (sup : Port) (wb : BitVec 4)
  /-- ATTACH: PRESn rises (R126). -/
  | attach (p : Port)
  /-- DETACH: PRESn falls (R129). -/
  | detach (p : Port)
  /-- REQUEST: REQn rises while SELn presents `sel` (R78). -/
  | request (p : Port) (sel : SelCode)
  /-- WITHDRAWAL: REQn falls (R80). -/
  | withdrawal (p : Port)
  /-- RELEASE: REQn falls (R111). -/
  | release (p : Port)
  /-- ADDRESS_STROBE: AS# with A[15:0] and WR (R98, R139). -/
  | addressStrobe (addr : Address) (write : Bool)
  /-- READY: RDY# with the byte on D[7:0], which a write takes (R99, R140). -/
  | ready (data : Byte)
  /-- IDLE_LIMIT: the tick at which the idle count reaches the idle limit (R103). -/
  | idleLimit
  /-- GRACE_EXPIRY: the tick at which grace remaining reaches 0 (R116). -/
  | graceExpiry
  /-- DRAIN_EXPIRY: the tick at which drain remaining reaches 0 (R114). -/
  | drainExpiry
  /-- BOUNDARY: the tick at which the tick count would reach FT (R50). -/
  | boundary
  /-- SWEEP_VISIT: the boundary sweep's next visit (R56). -/
  | sweepVisit
  /-- GRANT_DECISION (R86, R91). -/
  | grantDecision
  /-- TRIGGER: the ready that completes a write of `value`, not 0, to offset 0x00 (R143). -/
  | trigger (value : Byte)
  /-- WINDOW_WRITE: the ready that completes a write to an offset with no behaviour of its own (R141). -/
  | windowWrite (value : Byte)
  /-- PORT_CONTROL_WRITE: the ready that completes a write to offset 0x35 (R128). -/
  | portControlWrite (value : Byte)
  /-- NOTICE_TAKE: the ready that completes a read of offset 0x38 (R153). -/
  | noticeTake
  /-- TIME_SNAPSHOT: the ready that completes a read of offset 0x3C (R52). -/
  | timeSnapshot
  /-- BAD_COMMAND: the take of a captured record whose code is undefined (R150). -/
  | takeBadCommand
  /-- OPEN (R160). -/
  | takeOpen
  /-- MODIFY (R163). -/
  | takeModify
  /-- RENEW (R165). -/
  | takeRenew
  /-- CLOSE (R167). -/
  | takeClose
  /-- BIND (R74). -/
  | takeBind
  /-- UNBIND (R75). -/
  | takeUnbind
  /-- QUERY (R170). -/
  | takeQuery
  /-- LIST (R171). -/
  | takeList
  /-- LIST_VISIT (R172). -/
  | listVisit
  /-- OPEN_FOR (R176). -/
  | takeOpenFor
  /-- REVOKE (R178). -/
  | takeRevoke
  /-- SUSPEND (R180). -/
  | takeSuspend
  /-- RESUME (R181). -/
  | takeResume
  /-- DEMOTE (R182). -/
  | takeDemote
  /-- CLEAR_FENCE (R135). -/
  | takeClearFence
  /-- SET_FRAME (R184). -/
  | takeSetFrame
  /-- RESET_TABLE (R185). -/
  | takeResetTable
  /-- RESET_TABLE_VISIT (R28). -/
  | resetTableVisit
  /-- QUERY_PORT (R187). -/
  | takeQueryPort
  /-- TICK: a tick of TCLK (R49). -/
  | tick
  deriving DecidableEq, Repr

end Sys2Proof
end

