-- ==== Sys2Proof/Config.lean ====
section
/-! DEFINITION. The frame configuration and the fixed sizes of the device. The spec leaves no result value open,
so there is no free value here. -/

namespace Sys2Proof

/-- The six fields of a frame configuration (R46). -/
structure FrameConfig where
  /-- capacity, credits per frame -/
  capacity : Nat
  /-- management reserve, credits per frame -/
  reserve : Nat
  /-- frame length FT, ticks -/
  frameTicks : Nat
  /-- grace and drain time G, ticks -/
  grace : Nat
  /-- idle limit I, ticks -/
  idle : Nat
  /-- spare tenure limit S, credits -/
  spare : Nat
  deriving DecidableEq, Repr

/-- The power-on configuration (R46). -/
def FrameConfig.powerOn : FrameConfig :=
  { capacity := 4096, reserve := 512, frameTicks := 1000, grace := 8, idle := 16, spare := 64 }

/-- The most live reservations one port may own (R11). -/
def Config.portLimit : Nat := 8

/-- The most entries a notice set holds (R188). -/
def Config.noticeLimit : Nat := 16

/-- The tick count before which the boundary sweep takes its last visit (R55). -/
def Config.sweepTicks : Nat := 16

end Sys2Proof
end

