-- ==== Sys2Proof/Machine/State.lean ====
section
/-! DEFINITION. The state of the block as plain data: every record of every chapter of the spec, the input pins, what
the device drives on D[7:0], and the queue of commands that wait. -/

namespace Sys2Proof.Machine

/-- A handle: slot and generation (R8). -/
structure Handle where
  slot : Slot
  generation : Generation
  deriving DecidableEq, Repr

/-- The class of a reservation (R1). -/
inductive ResClass where
  | fixed | elastic
  deriving DecidableEq, Repr

/-- The live states of a record (R1); FREE is the absence of a live record. -/
inductive LiveState where
  | active | suspended | lapsed
  deriving DecidableEq, Repr

/-- The suspension-cause set (R13). -/
structure Causes where
  command : Bool
  fence : Bool
  deriving DecidableEq, Repr

/-- The fields of a live reservation (R1). -/
structure Reservation where
  state : LiveState
  owner : Port
  cls : ResClass
  preempt : Bool
  share : Nat
  pendingShare : Option Nat
  maxTenure : Nat
  priority : Fin 4
  leaseLength : Nat
  leaseRemaining : Nat
  credit : Nat
  causes : Causes
  shortfall : Nat
  tag : BitVec 16
  deriving DecidableEq, Repr

/-- One record of the Reservation Table: its generation, kept in every state, and its live fields; `live = none` is
the state FREE, whose other fields hold the FREE values of R2. -/
structure TableRecord where
  generation : Generation
  live : Option Reservation
  deriving DecidableEq, Repr

/-- The states of the port machine (R123). -/
inductive PortState where
  | detached | idle | waiting | granted | yielding | draining | fenced
  deriving DecidableEq, Repr

/-- The reasons of a yield (R96). -/
inductive YieldReason where
  | preempted | spent | limit | idle | withdrawn
  deriving DecidableEq, Repr

/-- The last yield reason of a port record (R123): NONE, a yield's reason, CUT or FORCED. -/
inductive LastYield where
  | none
  | asked (r : YieldReason)
  | cut
  | forced
  deriving DecidableEq, Repr

/-- A port record (R123). -/
structure PortRecord where
  state : PortState
  fenceCount : Nat
  ntfEnable : Bool
  lastYield : LastYield
  deriving DecidableEq, Repr

/-- A waiting entry (R77); its port is the place it stands at. -/
structure WaitingEntry where
  handle : Option Handle
  deriving DecidableEq, Repr

/-- Tiers 1 to 3; the standing of a tenure is one of them (R83, R96). -/
inductive Tier where
  | one | two | three
  deriving DecidableEq, Repr

/-- The tenure record (R96). -/
structure Tenure where
  holder : Port
  drawing : Option Handle
  standing : Tier
  usage : Nat
  idleTicks : Nat
  idleLimit : Nat
  spareLimit : Nat
  yield : Option YieldReason
  tenureG : Option Nat
  graceRemaining : Option Nat
  drainRemaining : Option Nat
  deriving DecidableEq, Repr

/-- The mark of a window access: offset, direction, holder's port (R140). -/
structure WindowAccess where
  offset : Byte
  write : Bool
  port : Port
  deriving DecidableEq, Repr

/-- A cycle of the tenure in progress: its cost, 1 or 2 (R98), and its window mark if it falls in the window. -/
structure Cycle where
  cost : Nat
  access : Option WindowAccess
  deriving DecidableEq, Repr

/-- An entry of the pending order (R99). -/
inductive Strobe where
  | cycle (c : Cycle)
  | stray
  deriving DecidableEq, Repr

/-- The states of a command slot (R142). -/
inductive SlotState where
  | idle | queued | running | done
  deriving DecidableEq, Repr

/-- The reply statuses (R151). -/
inductive ReplyStatus where
  | none | pending | done
  | badCommand | notSupervisor | badField | stale | notOwner | wrongState | tableFull | portLimit | capacity | preemptLimit
  deriving DecidableEq, Repr

/-- A command slot (R142). -/
structure CommandSlot where
  state : SlotState
  area : Vector Byte 16
  captured : Option (Vector Byte 16)
  status : ReplyStatus
  count : Nat
  data : Vector Byte 30
  refused : Bool
  deriving DecidableEq, Repr

/-- What a walk gathers: LIST's port, start slot and noted handle and tag pairs (R172), or the number of records
RESET_TABLE's own visits retired (R185) and whether its issuer's detach has discarded its reply (R130). -/
inductive WalkKind where
  | list (listed : Port) (start : Slot) (found : List (Handle × BitVec 16))
  | resetTable (retired : Nat) (discarded : Bool)
  deriving DecidableEq, Repr

/-- A walk in progress (R148), with the ticks of TCLK since its take (R149). -/
structure Walk where
  issuer : Port
  next : Slot
  ticks : Nat
  kind : WalkKind
  deriving DecidableEq, Repr

/-- The fourteen notice kinds (section 10.3). -/
inductive NoticeKind where
  | fenced | forced | portFenced | portDetached | revoked | suspended | resumed | lapsed | retired | opened
  | leaseLow | shortfall | tableReset | cmdDone
  deriving DecidableEq, Repr

/-- The subject of a notice (R188). -/
inductive Subject where
  | none
  | handle (h : Handle)
  | port (p : Port)
  deriving DecidableEq, Repr

/-- A notice entry (R188); its place in the list is its place in the order of making. -/
structure NoticeEntry where
  kind : NoticeKind
  subject : Subject
  count : Nat
  deriving DecidableEq, Repr

/-- A notice set (R188), entries in the order of making. -/
structure NoticeSet where
  entries : List NoticeEntry
  overrun : Bool
  deriving DecidableEq, Repr

/-- The kind in a readout latch: NONE, OVERRUN or a notice kind (R153, R193). -/
inductive LatchKind where
  | none
  | overrun
  | notice (k : NoticeKind)
  deriving DecidableEq, Repr

/-- A readout latch (R153). -/
structure Latch where
  kind : LatchKind
  subject : Subject
  count : Nat
  deriving DecidableEq, Repr

/-- A time snapshot (R52). -/
structure Snapshot where
  frameNumber : BitVec 16
  tickCount : Nat
  deriving DecidableEq, Repr

/-- The whole block, with the queue of commands that wait. -/
structure State where
  /-- RST# is low (R125). -/
  rstLow : Bool
  /-- the levels of PRESn, REQn and SELn -/
  pres : Vector Bool 8
  req : Vector Bool 8
  sel : Vector SelCode 8
  /-- the byte the device drove on D[7:0] at the last ready, if it drove one (R140) -/
  driven : Option Byte
  /-- the sampled straps (R124, R139) -/
  supervisor : Port
  windowBase : BitVec 4
  /-- Port Controller (R123) -/
  ports : Vector PortRecord 8
  /-- Reservation Table (R1) -/
  table : Vector TableRecord 32
  /-- Binding Table (R73) -/
  bindings : Vector (Vector (Option Handle) 4) 8
  /-- Admission Unit (R30) -/
  committed : Nat
  preemptTotal : Nat
  pendingConfig : Option FrameConfig
  /-- Frame Timer (R46, R49, R50, R52, R54); `sweep` is the slot of the next visit while a sweep runs -/
  config : FrameConfig
  tickCount : Nat
  frameNumber : BitVec 16
  sweep : Option Slot
  snapshots : Vector Snapshot 8
  /-- Grant Arbiter (R77, R88) -/
  waiting : Vector (Option WaitingEntry) 8
  pointers : Vector Port 6
  /-- Tenure Monitor (R96) -/
  tenure : Option Tenure
  /-- Bus Monitor (R99), oldest first -/
  pendingOrder : List Strobe
  /-- Command Unit (R142, R146, R148), queue oldest first -/
  slots : Vector CommandSlot 8
  cmdQueue : List Port
  walk : Option Walk
  /-- the ports that have had an accepted trigger since the last boundary event (the model's own, log entry 18) -/
  late : Vector Bool 8
  /-- Notice Unit (R188, R153) -/
  notices : Vector NoticeSet 8
  latches : Vector Latch 8
  /-- the commands that wait, first in, first out (the model's own) -/
  pending : List Instr
  deriving DecidableEq, Repr

/-- Why a step stops. The spec gives every event an outcome, so there is no reason and the type has no constructor. -/
inductive Fault where
  deriving DecidableEq, Repr

/-- Why a command has no meaning. -/
inductive Refusal where
  /-- Raised by an arm of `exec` whose command has no meaning yet; no arm raises it now. Safe: the run stops. -/
  | notModelled (mnemonic : String)
  deriving DecidableEq, Repr

/-- The FREE record with generation 0 (R2, R27). -/
def TableRecord.initial : TableRecord := { generation := 0, live := none }

/-- The port record while RST# is low (R123). -/
def PortRecord.initial : PortRecord := { state := .detached, fenceCount := 0, ntfEnable := true, lastYield := .none }

/-- The command slot after power-on reset and after detach (R142, R130). -/
def CommandSlot.initial : CommandSlot :=
  { state := .idle, area := Vector.replicate 16 0, captured := none, status := .none, count := 0,
    data := Vector.replicate 30 0, refused := false }

/-- The empty notice set (R188). -/
def NoticeSet.initial : NoticeSet := { entries := [], overrun := false }

/-- The readout latch at kind NONE (R153). -/
def Latch.initial : Latch := { kind := .none, subject := .none, count := 0 }

/-- The machine in power-on reset, RST# held low: every register at the value the chapters give for it. The sampled
straps and the pin levels are log entries 6 and 7. -/
def State.reset : State :=
  { rstLow := true
    pres := Vector.replicate 8 false
    req := Vector.replicate 8 false
    sel := Vector.replicate 8 0
    driven := none
    supervisor := 0
    windowBase := 0
    ports := Vector.replicate 8 PortRecord.initial
    table := Vector.replicate 32 TableRecord.initial
    bindings := Vector.replicate 8 (Vector.replicate 4 none)
    committed := 0
    preemptTotal := 0
    pendingConfig := none
    config := FrameConfig.powerOn
    tickCount := 0
    frameNumber := 0
    sweep := none
    snapshots := Vector.replicate 8 { frameNumber := 0, tickCount := 0 }
    waiting := Vector.replicate 8 none
    pointers := Vector.replicate 6 7
    tenure := none
    pendingOrder := []
    slots := Vector.replicate 8 CommandSlot.initial
    cmdQueue := []
    walk := none
    late := Vector.replicate 8 false
    notices := Vector.replicate 8 NoticeSet.initial
    latches := Vector.replicate 8 Latch.initial
    pending := [] }

end Sys2Proof.Machine
end

