-- ==== Sys2Proof/Machine/Operands.lean ====
section
/-! DEFINITION. Encodings of the window (R197 to R199) and the fields a take reads from the captured record (R198):
numbers and handles as bytes, the codes of enumerations, the field checks of the BAD_FIELD step. -/

namespace Sys2Proof.Machine

/-- The low byte of a number (R197). -/
def lowByte (n : Nat) : Byte := BitVec.ofNat 8 n

/-- The high byte of a sixteen-bit number (R197). -/
def highByte (n : Nat) : Byte := BitVec.ofNat 8 (n / 256)

/-- A sixteen-bit number as two bytes, low byte first (R197). -/
def twoBytes (n : Nat) : List Byte := [lowByte n, highByte n]

/-- A handle as a sixteen-bit value: generation x 32 + slot (R197). -/
def handleWord (h : Handle) : Nat := h.generation.val * 32 + h.slot.val

/-- A sixteen-bit value as a handle: bits 4 to 0 the slot, bits 15 to 5 the generation (R197). -/
def handleOfWord (n : Nat) : Handle :=
  { slot := ⟨n % 32, Nat.mod_lt _ (by decide)⟩, generation := ⟨n / 32 % 2048, Nat.mod_lt _ (by decide)⟩ }

/-- A handle as two bytes (R197). -/
def handleBytes (h : Handle) : List Byte := twoBytes (handleWord h)

/-- Byte `i` of a bank of bytes, 0x00 beyond its end. -/
def byteAt {n : Nat} (v : Vector Byte n) (i : Nat) : Byte := v.toList.getD i 0

/-- The one-byte field at position `i` of a captured record (R198). -/
def field8 (c : Vector Byte 16) (i : Nat) : Nat := (byteAt c i).toNat

/-- The two-byte field at positions `i` and `i + 1`, low byte first (R197, R198). -/
def field16 (c : Vector Byte 16) (i : Nat) : Nat := field8 c i + 256 * field8 c (i + 1)

/-- The handle at 0x0C and 0x0D (R198). -/
def handleField (c : Vector Byte 16) : Handle := handleOfWord (field16 c 0x0C)

/-- A port number field at 0x0B: none above 7 (R174, R198). -/
def portField (c : Vector Byte 16) : Option Port :=
  if h : field8 c 0x0B < 8 then some ⟨field8 c 0x0B, h⟩ else none

/-- A select code field at 0x0B: none above 3 (R74, R198). -/
def selField (c : Vector Byte 16) : Option SelCode :=
  if h : field8 c 0x0B < 4 then some ⟨field8 c 0x0B, h⟩ else none

/-- LIST's start slot at 0x01: none above 31 (R171, R198). -/
def startField (c : Vector Byte 16) : Option Slot :=
  if h : field8 c 0x01 < 32 then some ⟨field8 c 0x01, h⟩ else none

/-- The terms an opening carries (R159). -/
structure OpenTerms where
  cls : ResClass
  preempt : Bool
  share : Nat
  maxTenure : Nat
  priority : Fin 4
  leaseLength : Nat
  tag : BitVec 16
  deriving DecidableEq, Repr

/-- A class code: 0x00 FIXED, 0x01 ELASTIC, any other refused (R198). -/
def classOfCode (n : Nat) : Option ResClass :=
  if n = 0 then some .fixed else if n = 1 then some .elastic else none

/-- A preempt code: 0x00 no, 0x01 yes, any other refused (R198). -/
def preemptOfCode (n : Nat) : Option Bool :=
  if n = 0 then some false else if n = 1 then some true else none

/-- A priority: none above 3 (R159). -/
def priorityOfCode (n : Nat) : Option (Fin 4) := if h : n < 4 then some ⟨n, h⟩ else none

/-- The ranges of R159 beyond the codes: share not 0, max tenure 1 to 1023 and at most 32 with preempt yes, no
preempt with ELASTIC, and a lease length of 0 only where a permanent lease is allowed (R3, R175). -/
def openTermsInRange (permanentOk : Bool) (t : OpenTerms) : Bool :=
  decide (0 < t.share) && decide (0 < t.maxTenure) && decide (t.maxTenure ≤ 1023)
    && (!t.preempt || (decide (t.cls = .fixed) && decide (t.maxTenure ≤ 32)))
    && (permanentOk || decide (0 < t.leaseLength))

/-- The terms of an OPEN or OPEN_FOR at 0x01 to 0x0A; none is BAD_FIELD (R159, R175, R198). -/
def openTerms (permanentOk : Bool) (c : Vector Byte 16) : Option OpenTerms :=
  match classOfCode (field8 c 0x01), preemptOfCode (field8 c 0x02), priorityOfCode (field8 c 0x07) with
  | some cls, some preempt, some priority =>
    let t : OpenTerms :=
      { cls := cls, preempt := preempt, share := field16 c 0x03, maxTenure := field16 c 0x05, priority := priority,
        leaseLength := field8 c 0x08, tag := BitVec.ofNat 16 (field16 c 0x09) }
    if openTermsInRange permanentOk t then some t else none
  | _, _, _ => none

/-- The fields a MODIFY's mask names, with their values (R162). -/
structure Changes where
  share : Option Nat
  maxTenure : Option Nat
  priority : Option Nat
  leaseLength : Option Nat
  tag : Option (BitVec 16)
  deriving DecidableEq, Repr

/-- MODIFY's mask bits and values: bit 0 share, bit 1 max tenure, bit 2 priority, bit 3 lease length, bit 4 tag (R198). -/
def rawChanges (c : Vector Byte 16) : Changes :=
  let m := byteAt c 0x0B
  { share := if m.getLsbD 0 then some (field16 c 0x03) else none
    maxTenure := if m.getLsbD 1 then some (field16 c 0x05) else none
    priority := if m.getLsbD 2 then some (field8 c 0x07) else none
    leaseLength := if m.getLsbD 3 then some (field8 c 0x08) else none
    tag := if m.getLsbD 4 then some (BitVec.ofNat 16 (field16 c 0x09)) else none }

/-- A named value is in its range; a field outside the mask is not checked (R162). -/
def namedOk (v : Option Nat) (ok : Nat → Bool) : Bool :=
  match v with
  | none => true
  | some n => ok n

/-- The BAD_FIELD checks of R162 that read the fields alone. -/
def changesInRange (c : Vector Byte 16) : Bool :=
  let ch := rawChanges c
  decide (0 < field8 c 0x0B) && decide (field8 c 0x0B < 32)
    && namedOk ch.share (fun n => decide (0 < n))
    && namedOk ch.maxTenure (fun n => decide (0 < n) && decide (n ≤ 1023))
    && namedOk ch.priority (fun n => decide (n < 4))
    && namedOk ch.leaseLength (fun n => decide (0 < n))

/-- The six fields of SET_FRAME, sixteen-bit each at 0x01 to 0x0C (R198). -/
def frameFields (c : Vector Byte 16) : FrameConfig :=
  { capacity := field16 c 0x01, reserve := field16 c 0x03, frameTicks := field16 c 0x05, grace := field16 c 0x07,
    idle := field16 c 0x09, spare := field16 c 0x0B }

/-- The ranges of R46. A high byte of G or I other than 0x00 makes the value larger than 255 (R197). -/
def frameInRange (f : FrameConfig) : Bool :=
  decide (256 ≤ f.capacity) && decide (f.capacity ≤ 65535) && decide (16 ≤ f.reserve)
    && decide (f.reserve ≤ f.capacity / 2) && decide (16 ≤ f.frameTicks) && decide (f.frameTicks ≤ 65535)
    && decide (1 ≤ f.grace) && decide (f.grace ≤ 255) && decide (1 ≤ f.idle) && decide (f.idle ≤ 255)
    && decide (1 ≤ f.spare) && decide (f.spare ≤ 1023)

/-- A configuration as the twelve bytes at 0x40 to 0x4B (R199). -/
def frameBytes (f : FrameConfig) : List Byte :=
  twoBytes f.capacity ++ twoBytes f.reserve ++ twoBytes f.frameTicks ++ twoBytes f.grace ++ twoBytes f.idle
    ++ twoBytes f.spare

/-- Record state codes (R199). -/
def liveStateCode (x : LiveState) : Byte :=
  match x with
  | .active => 0x01
  | .suspended => 0x02
  | .lapsed => 0x03

/-- Port state codes (R199). -/
def portStateCode (x : PortState) : Byte :=
  match x with
  | .detached => 0x00
  | .idle => 0x01
  | .waiting => 0x02
  | .granted => 0x03
  | .yielding => 0x04
  | .draining => 0x05
  | .fenced => 0x06

/-- Last yield reason codes (R199). -/
def lastYieldCode (x : LastYield) : Byte :=
  match x with
  | .none => 0x00
  | .asked .preempted => 0x01
  | .asked .spent => 0x02
  | .asked .limit => 0x03
  | .asked .idle => 0x04
  | .asked .withdrawn => 0x05
  | .cut => 0x06
  | .forced => 0x07

/-- Reply status codes (R199). -/
def statusCode (x : ReplyStatus) : Byte :=
  match x with
  | .none => 0x00
  | .pending => 0x01
  | .done => 0x02
  | .capacity => 0x10
  | .preemptLimit => 0x11
  | .tableFull => 0x12
  | .portLimit => 0x13
  | .stale => 0x14
  | .notOwner => 0x15
  | .badField => 0x16
  | .badCommand => 0x17
  | .notSupervisor => 0x18
  | .wrongState => 0x19

/-- Slot state codes, bits 1 to 0 of 0x31 (R199). -/
def slotStateCode (x : SlotState) : Byte :=
  match x with
  | .idle => 0
  | .queued => 1
  | .running => 2
  | .done => 3

/-- Class codes (R198, R199). -/
def classCode (x : ResClass) : Byte :=
  match x with
  | .fixed => 0x00
  | .elastic => 0x01

/-- A flag as a byte, 0x01 when set. -/
def flagByte (b : Bool) : Byte := if b then 0x01 else 0x00

/-- Suspension causes: bit 0 COMMAND, bit 1 FENCE (R199). -/
def causesByte (c : Causes) : Byte := (if c.command then 0x01 else 0x00) ||| (if c.fence then 0x02 else 0x00)

/-- The rank of a notice kind in the table of section 10.3. -/
def kindRank (k : NoticeKind) : Nat :=
  match k with
  | .fenced => 1
  | .forced => 2
  | .portFenced => 3
  | .portDetached => 4
  | .revoked => 5
  | .suspended => 6
  | .resumed => 7
  | .lapsed => 8
  | .retired => 9
  | .opened => 10
  | .leaseLow => 11
  | .shortfall => 12
  | .tableReset => 13
  | .cmdDone => 14

/-- A kind's code at 0x38: NONE 0x00, OVERRUN 0x01, a notice kind its rank plus one (R199). -/
def latchKindCode (k : LatchKind) : Byte :=
  match k with
  | .none => 0x00
  | .overrun => 0x01
  | .notice k => lowByte (kindRank k + 1)

/-- The two subject bytes at 0x39 and 0x3A (R199). -/
def subjectBytes (x : Subject) : List Byte :=
  match x with
  | .none => [0x00, 0x00]
  | .handle h => handleBytes h
  | .port p => [lowByte p.val, 0x00]

/-- Reply data: the bytes given, the rest 0x00 (R199). -/
def replyData (bs : List Byte) : Vector Byte 30 := Vector.ofFn fun i => bs.getD i.val 0

/-- The QUERY record layout from 0x12, 21 bytes (R199). -/
def queryBytes (h : Handle) (r : Reservation) : List Byte :=
  handleBytes h ++ [liveStateCode r.state, lowByte r.owner.val, classCode r.cls, flagByte r.preempt] ++ twoBytes r.share
    ++ twoBytes (r.pendingShare.getD 0) ++ twoBytes r.maxTenure
    ++ [lowByte r.priority.val, lowByte r.leaseLength, lowByte r.leaseRemaining] ++ twoBytes r.credit
    ++ [causesByte r.causes, lowByte r.shortfall] ++ twoBytes r.tag.toNat

/-- The pairs of a LIST reply: the first seven, handle then tag (R172, R199). -/
def listBytes (found : List (Handle × BitVec 16)) : List Byte :=
  (found.take 7).flatMap fun x => handleBytes x.1 ++ twoBytes x.2.toNat

end Sys2Proof.Machine
end

