-- ==== Sys2Proof/Machine/Flags.lean ====
section
/-! DEFINITION. Everything that is worked out from the state and not stored: the output lines, freshness of a handle,
contributions and limits, ranks and competitors, the yield conditions, the group search. -/

namespace Sys2Proof.Machine

/-- The contribution of a live reservation: the greater of share and pending share (R31). -/
def Reservation.contribution (r : Reservation) : Nat := max r.share (r.pendingShare.getD 0)

/-- The record of a port. -/
def State.port (s : State) (p : Port) : PortRecord := bankGet s.ports p

/-- The record of a slot. -/
def State.record (s : State) (k : Slot) : TableRecord := bankGet s.table k

/-- The live reservation in a slot, if any. -/
def State.liveAt (s : State) (k : Slot) : Option Reservation := (s.record k).live

/-- The handle of a slot: its number and its generation (R8). -/
def State.handleAt (s : State) (k : Slot) : Handle := { slot := k, generation := (s.record k).generation }

/-- The reservation a handle names if it is fresh; none if it is stale (R9). -/
def State.fresh (s : State) (h : Handle) : Option Reservation :=
  if (s.record h.slot).generation = h.generation then s.liveAt h.slot else none

/-- The owned count of a port (R2). -/
def State.owned (s : State) (p : Port) : Nat :=
  allSlots.countP fun k => (s.liveAt k).any fun r => decide (r.owner = p)

/-- The lowest-numbered FREE slot (R11). -/
def State.lowestFree (s : State) : Option Slot := allSlots.find? fun k => (s.liveAt k).isNone

/-- C - M of a configuration (R32). -/
def commitLimitOf (f : FrameConfig) : Nat := f.capacity - f.reserve

/-- floor(C/8) of a configuration (R32). -/
def preemptLimitOf (f : FrameConfig) : Nat := f.capacity / 8

/-- The committed limit: the smaller of the in-force and the pending value (R32). -/
def State.commitLimit (s : State) : Nat :=
  match s.pendingConfig with
  | none => commitLimitOf s.config
  | some f => min (commitLimitOf s.config) (commitLimitOf f)

/-- The preempt limit: the smaller of the in-force and the pending value (R32). -/
def State.preemptLimit (s : State) : Nat :=
  match s.pendingConfig with
  | none => preemptLimitOf s.config
  | some f => min (preemptLimitOf s.config) (preemptLimitOf f)

/-- The ranks of a waiting entry (R83). -/
inductive Rank where
  | tier1
  | tier2 (group : Fin 4)
  | tier3
  | held
  deriving DecidableEq, Repr

/-- The rank a record gives an entry that names it (R83). -/
def Reservation.rank (r : Reservation) : Rank :=
  if r.state = .active ∧ 0 < r.credit then
    if r.cls = .fixed ∧ r.preempt = true then .tier1 else .tier2 r.priority
  else
    match r.cls with
    | .elastic => .tier3
    | .fixed => .held

/-- The rank of a waiting entry as its record stands (R83). An entry's handle is always fresh (R26); a stale one would
rank as an entry with no handle (log entry 11). -/
def State.entryRank (s : State) (e : WaitingEntry) : Rank :=
  match e.handle with
  | none => .tier3
  | some h =>
    match s.fresh h with
    | none => .tier3
    | some r => r.rank

/-- The rank of a port's entry, if it has one. -/
def State.portRank (s : State) (p : Port) : Option Rank := (bankGet s.waiting p).map s.entryRank

/-- The tier of an eligible rank; none for a held entry (R83). -/
def Rank.tier? (x : Rank) : Option Tier :=
  match x with
  | .tier1 => some .one
  | .tier2 _ => some .two
  | .tier3 => some .three
  | .held => none

/-- The tier at which a port's entry competes: none if it has no entry or a held one (R94, R106). -/
def State.competitorTier (s : State) (p : Port) : Option Tier := (s.portRank p).bind Rank.tier?

/-- A competitor of the given tier waits (R106). -/
def State.competitorAt (s : State) (t : Tier) : Bool := allPorts.any fun p => decide (s.competitorTier p = some t)

/-- A competitor waits: an eligible entry is in the waiting set (R106). -/
def State.anyCompetitor (s : State) : Bool := allPorts.any fun p => (s.competitorTier p).isSome

/-- The usage limit of R106 is reached: the drawing record's max tenure as it stands at standing 1 or 2, the
tenure's spare limit at standing 3. -/
def State.limitReached (s : State) (t : Tenure) : Bool :=
  if t.standing = .three then decide (t.spareLimit ≤ t.usage)
  else (t.drawing.bind s.fresh).any fun r => decide (r.maxTenure ≤ t.usage)

/-- A competitor that preempts a tenure of this standing waits (R106). -/
def State.preempts (s : State) (t : Tier) : Bool :=
  (decide (t ≠ .one) && s.competitorAt .one) || (decide (t = .three) && s.competitorAt .two)

/-- The first condition of R106 that is met, in the order of R107. -/
def State.yieldCondition (s : State) (t : Tenure) : Option YieldReason :=
  if s.preempts t.standing then some .preempted
  else if s.anyCompetitor && s.limitReached t then some .limit
  else if s.anyCompetitor && decide (t.idleLimit ≤ t.idleTicks) then some .idle
  else none

/-- A port state that holds the bus (R86). -/
def PortState.holdsBus (x : PortState) : Bool :=
  match x with
  | .granted => true
  | .yielding => true
  | .draining => true
  | _ => false

/-- The bus is free when no port is in GRANTED, YIELDING or DRAINING (R86). -/
def State.busFree (s : State) : Bool := allPorts.all fun p => !(s.port p).state.holdsBus

/-- An entry of the pending order as a cycle of the tenure, if it is one (R99). -/
def Strobe.cycle? (x : Strobe) : Option Cycle :=
  match x with
  | .cycle c => some c
  | .stray => none

/-- The tenure's list of R98: the cycles of the pending order, oldest first. -/
def State.cycles (s : State) : List Cycle := s.pendingOrder.filterMap Strobe.cycle?

/-- The group of a rank in the order of R87; none for a held entry. -/
def Rank.group? (x : Rank) : Option Group :=
  match x with
  | .tier1 => some 0
  | .tier2 g => some ⟨4 - g.val, by omega⟩
  | .tier3 => some 5
  | .held => none

/-- The ports in the cyclic order that begins after a pointer and ends with it (R88). -/
def searchOrder (p : Port) : List Port := allPorts.map fun i => p + 1 + i

/-- The first port of a group in its rotation order (R88). -/
def State.groupWinner (s : State) (g : Group) : Option Port :=
  (searchOrder (bankGet s.pointers g)).find? fun p => decide ((s.portRank p).bind Rank.group? = some g)

/-- The decision of R87 and R88: the first group that holds an eligible entry, and its winner. -/
def State.decision (s : State) : Option (Group × Port) :=
  (List.finRange 6).findSome? fun g => (s.groupWinner g).map fun p => (g, p)

/-- GNTn (R127); low while RST# is low (R200). -/
def State.gntLine (s : State) (p : Port) : Bool := !s.rstLow && (s.port p).state.holdsBus

/-- ENn carries the same level as GNTn (R127). -/
def State.enLine (s : State) (p : Port) : Bool := s.gntLine p

/-- YLDn: asserted from the yield to the end of port n's tenure (R127). -/
def State.yldLine (s : State) (p : Port) : Bool :=
  !s.rstLow && s.tenure.any fun t => decide (t.holder = p) && t.yield.isSome

/-- The set holds an item: an entry or the overrun indication (R128). -/
def NoticeSet.nonempty (n : NoticeSet) : Bool := !n.entries.isEmpty || n.overrun

/-- NTFn (R128); low while RST# is low (R200). -/
def State.ntfLine (s : State) (p : Port) : Bool :=
  !s.rstLow && (s.port p).ntfEnable && (bankGet s.notices p).nonempty

/-- The rank byte of QUERY_PORT (R199). -/
def rankCode (x : Option Rank) : Byte :=
  match x with
  | none => 0x00
  | some .tier1 => 0x01
  | some (.tier2 g) => lowByte (2 + g.val)
  | some .tier3 => 0x06
  | some .held => 0x07

/-- The rank of a notice subject among entries of one kind: slot number or port number (R192). -/
def subjectRank (x : Subject) : Nat :=
  match x with
  | .none => 0
  | .handle h => h.slot.val
  | .port p => p.val

/-- The readout rank of an entry: kind first, then subject (R192). -/
def NoticeEntry.rank (e : NoticeEntry) : Nat := kindRank e.kind * 32 + subjectRank e.subject

/-- The first-ranked entry; among equals the earlier made (R192). -/
def firstRanked (es : List NoticeEntry) : Option NoticeEntry :=
  match es with
  | [] => none
  | e :: rest =>
    match firstRanked rest with
    | none => some e
    | some m => if e.rank ≤ m.rank then some e else some m

end Sys2Proof.Machine
end

