-- ==== Sys2Proof/Machine/Ops.lean ====
section
/-! DEFINITION. The operations the commands share: updates of one record, notices, yields and ends of tenures,
retirement, the window, charging, the fence, entries, visits, and the completion of a command. Each is one thing the
spec says once and several events do. -/

namespace Sys2Proof.Machine

/-! ## Updates of one record -/

/-- The state with a port record replaced. -/
def State.setPort (s : State) (p : Port) (r : PortRecord) : State := { s with ports := bankSet s.ports p r }

/-- The state with a port's state replaced. -/
def State.setPortState (s : State) (p : Port) (x : PortState) : State := s.setPort p { s.port p with state := x }

/-- The state with a table record replaced. -/
def State.setRecord (s : State) (k : Slot) (r : TableRecord) : State := { s with table := bankSet s.table k r }

/-- The state with a slot's live fields replaced, its generation kept. -/
def State.setLive (s : State) (k : Slot) (r : Reservation) : State :=
  s.setRecord k { s.record k with live := some r }

/-- The state with the tenure record replaced. -/
def State.setTenure (s : State) (t : Option Tenure) : State := { s with tenure := t }

/-- The state with a port's place in the waiting set replaced. -/
def State.setWaiting (s : State) (p : Port) (e : Option WaitingEntry) : State :=
  { s with waiting := bankSet s.waiting p e }

/-- A port's binding for a select code (R73). -/
def State.binding (s : State) (p : Port) (c : SelCode) : Option Handle := bankGet (bankGet s.bindings p) c

/-- The state with one binding replaced. -/
def State.setBinding (s : State) (p : Port) (c : SelCode) (h : Option Handle) : State :=
  { s with bindings := bankSet s.bindings p (bankSet (bankGet s.bindings p) c h) }

/-- A port's command slot. -/
def State.slot (s : State) (p : Port) : CommandSlot := bankGet s.slots p

/-- The state with a command slot replaced. -/
def State.setSlot (s : State) (p : Port) (c : CommandSlot) : State := { s with slots := bankSet s.slots p c }

/-- The state with a notice set replaced. -/
def State.setNotices (s : State) (p : Port) (n : NoticeSet) : State := { s with notices := bankSet s.notices p n }

/-- The state with a readout latch replaced. -/
def State.setLatch (s : State) (p : Port) (l : Latch) : State := { s with latches := bankSet s.latches p l }

/-! ## Notices -/

/-- An entry of this kind and subject. -/
def NoticeEntry.same (k : NoticeKind) (x : Subject) (e : NoticeEntry) : Bool :=
  decide (e.kind = k) && decide (e.subject = x)

/-- A repeat: the count of the matching entry raised by one, stopping at 15 (R189). -/
def NoticeEntry.bump (k : NoticeKind) (x : Subject) (e : NoticeEntry) : NoticeEntry :=
  if e.same k x then { e with count := min 15 (e.count + 1) } else e

/-- A placement into a set (R189): merge, new entry last in the order of making, or overrun. -/
def NoticeSet.insert (n : NoticeSet) (k : NoticeKind) (x : Subject) : NoticeSet :=
  if n.entries.any (NoticeEntry.same k x) then { n with entries := n.entries.map (NoticeEntry.bump k x) }
  else if n.entries.length < Config.noticeLimit then
    { n with entries := n.entries ++ [{ kind := k, subject := x, count := 1 }] }
  else { n with overrun := true }

/-- A notice placed for a port; discarded while the port is DETACHED (R131, R189). -/
def State.place (s : State) (p : Port) (k : NoticeKind) (x : Subject) : State :=
  if (s.port p).state = .detached then s else s.setNotices p ((bankGet s.notices p).insert k x)

/-- The notice take of a port (R153, R193). -/
def State.takeNotice (s : State) (p : Port) : State :=
  let n := bankGet s.notices p
  if n.overrun then
    (s.setNotices p { n with overrun := false }).setLatch p { kind := .overrun, subject := .none, count := 1 }
  else
    match firstRanked n.entries with
    | none => s.setLatch p { kind := .none, subject := .none, count := 0 }
    | some e =>
      (s.setNotices p { n with entries := n.entries.erase e }).setLatch p
        { kind := .notice e.kind, subject := e.subject, count := e.count }

/-! ## Yields, standing and ends of tenures -/

/-- A yield asserted in the tenure in progress (R110): the reason, tenure G and grace from G in force, the holder
YIELDING with the reason as its last yield reason. -/
def State.assertYield (s : State) (t : Tenure) (r : YieldReason) : State :=
  (s.setTenure (some { t with yield := some r, tenureG := some s.config.grace, graceRemaining := some s.config.grace })).setPort
    t.holder { s.port t.holder with state := .yielding, lastYield := .asked r }

/-- A yield may be asserted: the holder is GRANTED and its yield is NONE (R106, R107, R110). -/
def State.mayYield (s : State) (t : Tenure) : Bool :=
  decide ((s.port t.holder).state = .granted) && t.yield.isNone

/-- A cause that needs no competitor, SPENT or WITHDRAWN (R107). -/
def State.raiseYield (s : State) (r : YieldReason) : State :=
  match s.tenure with
  | none => s
  | some t => if s.mayYield t then s.assertYield t r else s

/-- The Tenure Monitor tests the conditions of R106. -/
def State.testYield (s : State) : State :=
  match s.tenure with
  | none => s
  | some t =>
    if s.mayYield t then
      match s.yieldCondition t with
      | none => s
      | some r => s.assertYield t r
    else s

/-- The drawing reservation, if it is this handle, is withdrawn (R108): absent, standing 3, and for a FIXED record
yield WITHDRAWN. The conditions of R106 are tested by the caller, in the same event. -/
def State.withdrawDrawing (s : State) (h : Handle) (cls : ResClass) : State :=
  match s.tenure with
  | none => s
  | some t =>
    if t.drawing = some h then
      let s1 := s.setTenure (some { t with drawing := none, standing := .three })
      match cls with
      | .fixed => s1.raiseYield .withdrawn
      | .elastic => s1
    else s

/-- A refill of the drawing reservation returns an ELASTIC tenure at standing 3 to standing 2 (R105). -/
def State.refillStanding (s : State) (h : Handle) (cls : ResClass) : State :=
  match s.tenure with
  | none => s
  | some t =>
    if t.drawing = some h ∧ cls = .elastic ∧ t.standing = .three then s.setTenure (some { t with standing := .two })
    else s

/-- The end of the tenure of a holder (R97): the holder's new state, the tenure record absent, and the list's cycles
left in the pending order as strays (R99). GNT, EN and YLD follow (R127). -/
def State.endTenure (s : State) (p : Port) (x : PortState) : State :=
  { s.setPortState p x with tenure := none, pendingOrder := s.pendingOrder.map fun _ => Strobe.stray }

/-! ## Retirement -/

/-- A binding that names a retired handle becomes unbound (R26). -/
def dropBinding (h : Handle) (b : Option Handle) : Option Handle := if b = some h then none else b

/-- A waiting entry that names a retired handle loses it (R26, R82). -/
def dropWaiting (h : Handle) (e : Option WaitingEntry) : Option WaitingEntry :=
  match e with
  | none => none
  | some w => some (if w.handle = some h then { handle := none } else w)

/-- A total lowered by a contribution that counted in the preempt total only with preempt yes (R31). -/
def preemptPart (r : Reservation) (n : Nat) : Nat := if r.preempt then n else 0

/-- Retirement of the live record in a slot, if there is one (R25, R26, R41): the record FREE with its generation
advanced, its contribution released, the codes of its owner that name the handle unbound, a waiting entry that names
it without its handle, and a tenure drawing on it withdrawn (R108). -/
def State.retireRecord (s : State) (k : Slot) : State :=
  match s.liveAt k with
  | none => s
  | some r =>
    let h := s.handleAt k
    State.withdrawDrawing
      { s.setRecord k { generation := (s.record k).generation + 1, live := none } with
        committed := s.committed - r.contribution
        preemptTotal := s.preemptTotal - preemptPart r r.contribution
        bindings := bankSet s.bindings r.owner (bankMap (fun _ => dropBinding h) (bankGet s.bindings r.owner))
        waiting := bankMap (fun _ => dropWaiting h) s.waiting }
      h r.cls

/-- Retirement followed by the Tenure Monitor's test (R85, R94, R106). -/
def State.retire (s : State) (k : Slot) : State := (s.retireRecord k).testYield

/-! ## Requests -/

/-- A waiting entry is made (R78, R81): SELn is sampled, the binding is looked up, the port becomes WAITING, and the
change is handed to the Tenure Monitor (R94). -/
def State.makeEntry (s : State) (p : Port) : State :=
  State.testYield
    ((s.setWaiting p (some { handle := s.binding p (bankGet s.sel p) })).setPortState p .waiting)

/-- The release of the holder (R111). -/
def State.releaseBus (s : State) (p : Port) : State :=
  match s.tenure with
  | none => s
  | some t =>
    if t.holder = p then
      if s.cycles.isEmpty then s.endTenure p .idle
      else
        let g := t.tenureG.getD s.config.grace
        (s.setTenure (some { t with graceRemaining := none, tenureG := some g, drainRemaining := some g })).setPortState
          p .draining
    else s

/-- REQn falls (R80, R111, R113, R134): the level is low, and the port's state says what the fall is. While RST# is
low the line is not read (R125). -/
def State.requestFalls (s : State) (p : Port) : State :=
  let s0 := { s with req := bankSet s.req p false }
  if s.rstLow then s0
  else
    match (s.port p).state with
    | .waiting => ((s0.setWaiting p none).setPortState p .idle).testYield
    | .granted => s0.releaseBus p
    | .yielding => s0.releaseBus p
    | .detached => s0
    | .idle => s0
    | .draining => s0
    | .fenced => s0

/-! ## Charging -/

/-- A charge of the drawing reservation's record (R21, R102): credit reduced, stopping at 0; credit brought to 0
makes a FIXED holder yield SPENT and drops an ELASTIC tenure to standing 3. -/
def State.chargeRecord (s : State) (h : Handle) (cost : Nat) : State :=
  match s.fresh h with
  | none => s
  | some r =>
    let s1 := s.setLive h.slot { r with credit := r.credit - cost }
    if 0 < r.credit ∧ r.credit - cost = 0 then
      match r.cls, s1.tenure with
      | .fixed, _ => s1.raiseYield .spent
      | .elastic, some t => s1.setTenure (some { t with standing := .three })
      | .elastic, none => s1
    else s1

/-- A completed cycle is charged (R101), and the conditions of R106 are tested. -/
def State.charge (s : State) (cost : Nat) : State :=
  match s.tenure with
  | none => s
  | some t =>
    let s1 := s.setTenure (some { t with usage := min 65535 (t.usage + cost), idleTicks := 0 })
    match t.drawing with
    | none => s1.testYield
    | some h => (s1.chargeRecord h cost).testYield

/-- A drain whose list is empty completes the release (R113). -/
def State.finishDrain (s : State) : State :=
  match s.tenure with
  | none => s
  | some t =>
    if (s.port t.holder).state = .draining ∧ s.cycles.isEmpty then s.endTenure t.holder .idle else s

/-! ## The window -/

/-- An address strobe's window mark: the upper eight bits equal 0xF0 plus the sampled WB value (R139, R140). -/
def State.windowMark (s : State) (addr : Address) (write : Bool) (p : Port) : Option WindowAccess :=
  if addr.extractLsb' 8 8 = (0xF#4 ++ s.windowBase) then
    some { offset := addr.extractLsb' 0 8, write := write, port := p }
  else none

/-- The byte at 0x31: slot state and refused-trigger flag (R199). -/
def CommandSlot.statusByte (c : CommandSlot) : Byte :=
  slotStateCode c.state ||| (if c.refused then 0x80 else 0x00)

/-- The byte at 0x34: number of entries and overrun indication (R195, R199). -/
def NoticeSet.countByte (n : NoticeSet) : Byte := lowByte n.entries.length ||| (if n.overrun then 0x80 else 0x00)

/-- The byte a window offset shows to a port (R138, R141, R199). -/
def State.windowByte (s : State) (p : Port) (o : Nat) : Byte :=
  let c := s.slot p
  let latch := bankGet s.latches p
  let snap := bankGet s.snapshots p
  if o < 0x10 then byteAt c.area o
  else if o = 0x10 then statusCode c.status
  else if o = 0x11 then lowByte c.count
  else if o < 0x30 then byteAt c.data (o - 0x12)
  else if o = 0x30 then portStateCode (s.port p).state
  else if o = 0x31 then c.statusByte
  else if o = 0x32 then lastYieldCode (s.port p).lastYield
  else if o = 0x33 then lowByte (s.port p).fenceCount
  else if o = 0x34 then (bankGet s.notices p).countByte
  else if o = 0x35 then flagByte (s.port p).ntfEnable
  else if o = 0x36 then lowByte p.val
  else if o = 0x37 then flagByte (decide (p = s.supervisor))
  else if o = 0x38 then latchKindCode latch.kind
  else if o < 0x3B then (subjectBytes latch.subject).getD (o - 0x39) 0
  else if o = 0x3B then lowByte latch.count
  else if o < 0x3E then (twoBytes snap.frameNumber.toNat).getD (o - 0x3C) 0
  else if o < 0x40 then (twoBytes snap.tickCount).getD (o - 0x3E) 0
  else if o < 0x4C then (frameBytes s.config).getD (o - 0x40) 0
  else 0x00

/-- The time snapshot of a port (R52). -/
def State.takeSnapshot (s : State) (p : Port) : State :=
  { s with snapshots := bankSet s.snapshots p { frameNumber := s.frameNumber, tickCount := s.tickCount } }

/-- A window read of a port: the notice take of 0x38 and the snapshot of 0x3C come first, then the byte is driven on
D[7:0] (R52, R140, R153). -/
def State.windowRead (s : State) (p : Port) (o : Nat) : State :=
  let s1 := if o = 0x38 then s.takeNotice p else if o = 0x3C then s.takeSnapshot p else s
  { s1 with driven := some (s1.windowByte p o) }

/-- A byte stored in a port's command area (R141). -/
def State.storeArea (s : State) (p : Port) (o : Fin 16) (d : Byte) : State :=
  s.setSlot p { s.slot p with area := bankSet (s.slot p).area o d }

/-- A trigger accepted: the five steps of R143, and the mark that it came after the last boundary (R166). -/
def State.acceptTrigger (s : State) (p : Port) (d : Byte) : State :=
  let area := bankSet (s.slot p).area 0 d
  { s.setSlot p
      { state := .queued, area := area, captured := some area, status := .pending, count := 0,
        data := Vector.replicate 30 0, refused := false } with
    cmdQueue := s.cmdQueue ++ [p]
    late := bankSet s.late p true }

/-- A trigger taken by the slot state (R143, R144). -/
def State.triggerSlot (s : State) (p : Port) (d : Byte) : State :=
  match (s.slot p).state with
  | .idle => s.acceptTrigger p d
  | .done => s.acceptTrigger p d
  | .queued => s.setSlot p { s.slot p with refused := true }
  | .running => s.setSlot p { s.slot p with refused := true }

/-- The NTF enable written from bit 0 (R128, R199). -/
def State.writeControl (s : State) (p : Port) (d : Byte) : State :=
  s.setPort p { s.port p with ntfEnable := d.getLsbD 0 }

/-- A window write of a port (R141). -/
def State.windowStore (s : State) (p : Port) (o : Nat) (d : Byte) : State :=
  if o = 0 then if d = 0 then s.storeArea p 0 0 else s.triggerSlot p d
  else if h : o < 16 then s.storeArea p ⟨o, h⟩ d
  else if o = 0x35 then s.writeControl p d
  else s

/-- The effect of a completed window access, before the charge of its cycle (R140). -/
def State.windowEffect (s : State) (a : Option WindowAccess) (d : Byte) : State :=
  match a with
  | none => { s with driven := none }
  | some a =>
    if a.write then { s.windowStore a.port a.offset.toNat d with driven := none }
    else s.windowRead a.port a.offset.toNat

/-- A ready (R99): the oldest entry of the pending order completes. A cycle of the tenure takes its window effect,
leaves the list, is charged, and may complete a drain (R101, R113, R140). A stray completes nothing. -/
def State.readyEvent (s : State) (d : Byte) : State :=
  if s.rstLow then s
  else
    match s.pendingOrder with
    | [] => { s with driven := none }
    | .stray :: rest => { s with pendingOrder := rest, driven := none }
    | .cycle c :: rest =>
      match s.tenure with
      | none => { s with pendingOrder := rest, driven := none }
      | some _ =>
        let s1 := { s.windowEffect c.access d with pendingOrder := rest }
        (s1.charge c.cost).finishDrain

/-- A ready named by the window access it completes: if the oldest entry is a cycle of the tenure that is no such
access, the event does not arise; else it is the ready (log entry 1). -/
def State.readyOf (s : State) (is : WindowAccess → Bool) (d : Byte) : State :=
  match s.pendingOrder with
  | .cycle c :: _ => if c.access.any is then s.readyEvent d else s
  | _ => s.readyEvent d

/-! ## Fence, forced withdrawal and expiries -/

/-- A fence at one record (R15). -/
def fenceReservation (p : Port) (r : Reservation) : Reservation :=
  if r.owner = p then
    match r.state with
    | .active => { r with state := .suspended, causes := { r.causes with fence := true }, credit := 0 }
    | .suspended => { r with causes := { r.causes with fence := true } }
    | .lapsed => r
  else r

/-- A fence at one slot (R15). -/
def fenceRecord (p : Port) (x : TableRecord) : TableRecord := { x with live := x.live.map (fenceReservation p) }

/-- The fence of a holder (R117, R133). -/
def State.fencePort (s : State) (p : Port) : State :=
  let s1 := s.endTenure p .fenced
  let s2 := s1.setPort p { s1.port p with fenceCount := min 15 ((s1.port p).fenceCount + 1) }
  let s3 := { s2 with table := bankMap (fun _ => fenceRecord p) s2.table }
  (s3.place p .fenced .none).place s3.supervisor .portFenced (.port p)

/-- The forced withdrawal of the supervisor port (R118, R137). -/
def State.forceWithdrawal (s : State) (p : Port) : State :=
  let s1 := s.endTenure p .idle
  let s2 := s1.setPort p
    { s1.port p with fenceCount := min 15 ((s1.port p).fenceCount + 1), lastYield := .forced }
  s2.place p .forced .none

/-- Grace expiry: forced withdrawal at the supervisor port, a fence at any other (R116). -/
def State.expireGrace (s : State) (p : Port) : State :=
  if p = s.supervisor then s.forceWithdrawal p else s.fencePort p

/-- Drain expiry: the cycles are cut, the holder is IDLE, and CUT is recorded (R114). -/
def State.expireDrain (s : State) (p : Port) : State :=
  let s1 := s.endTenure p .idle
  s1.setPort p { s1.port p with lastYield := .cut }

/-- The holder whose grace this tick takes to 0 with REQn high (R116). -/
def State.graceDue (s : State) : Option Port :=
  match s.tenure with
  | none => none
  | some t =>
    if (s.port t.holder).state = .yielding ∧ t.graceRemaining.any (fun g => decide (g ≤ 1)) = true
        ∧ bankGet s.req t.holder = true then some t.holder else none

/-- The holder whose drain this tick takes to 0 with cycles outstanding (R114). -/
def State.drainDue (s : State) : Option Port :=
  match s.tenure with
  | none => none
  | some t =>
    if (s.port t.holder).state = .draining ∧ t.drainRemaining.any (fun d => decide (d ≤ 1)) = true
        ∧ s.cycles ≠ [] then some t.holder else none

/-- The idle count of a tenure raised by a tick while the list is empty, stopping at 255 (R103). -/
def State.raiseIdle (s : State) (t : Tenure) : Tenure :=
  if s.cycles.isEmpty then { t with idleTicks := min 255 (t.idleTicks + 1) } else t

/-- The tick takes the idle count to the tenure's idle limit while a competitor waits on a GRANTED holder (R103). -/
def State.idleDue (s : State) : Bool :=
  s.tenure.any fun t =>
    s.mayYield t && s.cycles.isEmpty && s.anyCompetitor && decide (t.idleLimit ≤ min 255 (t.idleTicks + 1))

/-- The idle count raised and the conditions tested after the raise (R103). -/
def State.idleTick (s : State) : State :=
  match s.tenure with
  | none => s
  | some t => if s.cycles.isEmpty then (s.setTenure (some (s.raiseIdle t))).testYield else s

/-- What a tick does at the Tenure Monitor: the idle count (R103), the grace (R116) and the drain (R114), each with
the event of its limit. -/
def State.tenureTick (s : State) : State :=
  match s.graceDue, s.drainDue, s.tenure with
  | some p, _, _ => s.expireGrace p
  | none, some p, _ => s.expireDrain p
  | none, none, none => s
  | none, none, some t =>
    match (s.port t.holder).state with
    | .yielding => s.setTenure (some { s.raiseIdle t with graceRemaining := t.graceRemaining.map (· - 1) })
    | .draining => s.setTenure (some { s.raiseIdle t with drainRemaining := t.drainRemaining.map (· - 1) })
    | _ => s.idleTick

/-! ## Commands -/

/-- A command completed in the event (R145, R147, R152): reply written, slot DONE, CMD_DONE placed. -/
def State.complete (s : State) (p : Port) (x : ReplyStatus) (count : Nat) (bs : List Byte) : State :=
  (s.setSlot p { s.slot p with state := .done, status := x, count := count, data := replyData bs }).place p .cmdDone .none

/-- A refusal: reply count 0 and reply data 0 (R145). -/
def State.refuse (s : State) (p : Port) (x : ReplyStatus) : State := s.complete p x 0 []

/-- A take of a record whose code satisfies `isCode` (R147). A take is due when RST# is high, no walk is running and
the queue is not empty; the oldest port leaves the queue and its captured record goes to `body`. If no such take is
due the event does not arise (log entry 2). -/
def State.take (s : State) (isCode : Byte → Bool) (body : Port → Vector Byte 16 → State → State) : State :=
  if s.rstLow ∨ s.walk.isSome then s
  else
    match s.cmdQueue with
    | [] => s
    | p :: rest =>
      match (s.slot p).captured with
      | none => s
      | some c => if isCode (byteAt c 0) then body p c { s with cmdQueue := rest } else s

/-- A supervisor command from any other port is NOT_SUPERVISOR (R150, R174). -/
def supervisorOnly (body : Port → Vector Byte 16 → State → State) (p : Port) (c : Vector Byte 16) (s : State) : State :=
  if p = s.supervisor then body p c s else s.refuse p .notSupervisor

/-- The take of a supervisor command (R150, R174). -/
def State.takeSupervisor (s : State) (code : Byte) (body : Port → Vector Byte 16 → State → State) : State :=
  s.take (fun b => decide (b = code)) (supervisorOnly body)

/-- The ruling on a raise of the committed total, and with preempt yes of the preempt total (R34, R35, R36). -/
def State.ruling (s : State) (raise : Nat) (preempt : Bool) : Option ReplyStatus :=
  if s.commitLimit < s.committed + raise then some .capacity
  else if preempt = true ∧ s.preemptLimit < s.preemptTotal + raise then some .preemptLimit
  else none

/-- The record an admitted opening writes (R12). -/
def openedReservation (owner : Port) (t : OpenTerms) (fenced : Bool) : Reservation :=
  { state := if fenced then .suspended else .active
    owner := owner, cls := t.cls, preempt := t.preempt, share := t.share, pendingShare := none, maxTenure := t.maxTenure
    priority := t.priority, leaseLength := t.leaseLength, leaseRemaining := t.leaseLength, credit := 0
    causes := { command := false, fence := fenced }, shortfall := 0, tag := t.tag }

/-- The record written and the totals raised in the same event (R12, R35). -/
def State.writeOpening (s : State) (k : Slot) (r : Reservation) : State :=
  { s.setLive k r with
    committed := s.committed + r.share
    preemptTotal := s.preemptTotal + preemptPart r r.share }

/-- An opening tested against the table and the account (R11, R34, R35): the refusal, or the slot it takes. -/
def State.openingSlot (s : State) (owner : Port) (t : OpenTerms) : Except ReplyStatus Slot :=
  match s.lowestFree with
  | none => .error .tableFull
  | some k =>
    if Config.portLimit ≤ s.owned owner then .error .portLimit
    else
      match s.ruling t.share t.preempt with
      | some x => .error x
      | none => .ok k

/-- The record of an opening for an owner as the owner stands (R12). -/
def State.newReservation (s : State) (owner : Port) (t : OpenTerms) : Reservation :=
  openedReservation owner t (decide ((s.port owner).state = .fenced))

/-- A record's contribution replaced in the totals in the event that changes it (R36, R40). -/
def State.replaceContribution (s : State) (old new : Reservation) : State :=
  { s with
    committed := s.committed + new.contribution - old.contribution
    preemptTotal := s.preemptTotal + preemptPart new new.contribution - preemptPart old old.contribution }

/-! ## Visits -/

/-- A pending share put in force (R59). -/
def applyPending (r : Reservation) : Reservation :=
  match r.pendingShare with
  | none => r
  | some n => { r with share := n, pendingShare := none }

/-- The shortfall test is met (R57): ACTIVE with credit above 0, and the owner's entry names the handle and is eligible. -/
def State.shortfallMet (s : State) (h : Handle) (r : Reservation) : Bool :=
  decide (r.state = .active) && decide (0 < r.credit)
    && (bankGet s.waiting r.owner).any fun e => decide (e.handle = some h) && (s.entryRank e).tier?.isSome

/-- The lease count of a refilled record (R62): the record after it and the notice it brings. -/
def countLease (r : Reservation) : Reservation × Option NoticeKind :=
  if r.leaseLength = 0 then (r, none)
  else if r.leaseRemaining ≤ 1 then ({ r with leaseRemaining := 0, state := .lapsed, credit := 0 }, some .lapsed)
  else if r.leaseRemaining = 2 then ({ r with leaseRemaining := 1 }, some .leaseLow)
  else ({ r with leaseRemaining := r.leaseRemaining - 1 }, none)

/-- A notice placed if there is one. -/
def State.placeIf (s : State) (p : Port) (k : Option NoticeKind) (x : Subject) : State :=
  match k with
  | none => s
  | some k => s.place p k x

/-- The sweep's visit to an ACTIVE record (R56): shortfall, pending share, refill, lease count, then the blocks told
(R63). The lease notice ranks before SHORTFALL (R190). -/
def State.visitActive (s : State) (k : Slot) (r : Reservation) : State :=
  let h := s.handleAt k
  let short := s.shortfallMet h r
  let r1 := applyPending (if short then { r with shortfall := min 255 (r.shortfall + 1) } else r)
  let counted := countLease { r1 with credit := r1.share }
  let s1 := (s.replaceContribution r r1).setLive k counted.1
  let s2 := (s1.placeIf r.owner counted.2 (.handle h)).placeIf r.owner (if short then some .shortfall else none) (.handle h)
  let s3 := if counted.1.state = .lapsed then s2.withdrawDrawing h r.cls else s2.refillStanding h r.cls
  s3.testYield

/-- The sweep's visit to a SUSPENDED record (R59, R60). -/
def State.visitSuspended (s : State) (k : Slot) (r : Reservation) : State :=
  let r1 := applyPending r
  ((s.replaceContribution r r1).setLive k { r1 with credit := 0 }).testYield

/-- The sweep's visit to a LAPSED record (R58): retirement with RETIRED for the owner. -/
def State.visitLapsed (s : State) (k : Slot) (r : Reservation) : State :=
  ((s.retireRecord k).place r.owner .retired (.handle (s.handleAt k))).testYield

/-- The sweep's visit to a slot (R56). -/
def State.visitSlot (s : State) (k : Slot) : State :=
  match s.liveAt k with
  | none => s
  | some r =>
    match r.state with
    | .active => s.visitActive k r
    | .suspended => s.visitSuspended k r
    | .lapsed => s.visitLapsed k r

/-- The slot after this one, or none after S31 (R54, R148). -/
def nextSlot (k : Slot) : Option Slot := if h : k.val + 1 < 32 then some ⟨k.val + 1, h⟩ else none

/-- One visit of the sweep, if a sweep is running (R54). -/
def State.sweepStep (s : State) : State :=
  match s.sweep with
  | none => s
  | some k => { s.visitSlot k with sweep := nextSlot k }

/-- What a LIST visit notes (R172). -/
def State.listNote (s : State) (listed : Port) (start k : Slot) : List (Handle × BitVec 16) :=
  if start ≤ k then
    match s.liveAt k with
    | none => []
    | some r => if r.owner = listed then [(s.handleAt k, r.tag)] else []
  else []

/-- One visit of a LIST walk (R172), with the reply at S31. -/
def State.listStep (s : State) (w : Walk) (listed : Port) (start : Slot) (found : List (Handle × BitVec 16)) : State :=
  let found' := found ++ s.listNote listed start w.next
  match nextSlot w.next with
  | some k => { s with walk := some { w with next := k, kind := .list listed start found' } }
  | none => State.complete { s with walk := none } w.issuer .done found'.length (listBytes found')

/-- TABLE_RESET for each attached port (R185). -/
def State.placeTableReset (s : State) : State :=
  allPorts.foldl (fun s p => s.place p .tableReset .none) s

/-- One visit of a RESET_TABLE walk (R28), with the reply, CMD_DONE and TABLE_RESET at S31 (R185); a discarded reply
is not written and no CMD_DONE is placed (R130). TABLE_RESET ranks before CMD_DONE (R190). -/
def State.resetTableStep (s : State) (w : Walk) (retired : Nat) (discarded : Bool) : State :=
  let retired' := if (s.liveAt w.next).isSome then retired + 1 else retired
  let s1 := s.retire w.next
  match nextSlot w.next with
  | some k => { s1 with walk := some { w with next := k, kind := .resetTable retired' discarded } }
  | none =>
    let s2 := { s1.placeTableReset with walk := none }
    if discarded then s2 else s2.complete w.issuer .done 1 [lowByte retired']

/-- One visit of the walk in progress (R148). -/
def State.walkStep (s : State) : State :=
  match s.walk with
  | none => s
  | some w =>
    match w.kind with
    | .list listed start found => s.listStep w listed start found
    | .resetTable retired discarded => s.resetTableStep w retired discarded

/-- The boundary event (R50, R39); every trigger accepted so far came before it (R166). -/
def State.boundaryEvent (s : State) : State :=
  { s with
    tickCount := 0
    frameNumber := s.frameNumber + 1
    config := s.pendingConfig.getD s.config
    pendingConfig := none
    sweep := some 0
    late := Vector.replicate 8 false }

/-- The next tick reaches FT (R49). -/
def State.boundaryDue (s : State) : Bool := decide (s.config.frameTicks ≤ s.tickCount + 1)

/-- What a tick does at the Frame Timer: the tick count raised, or the boundary event in its place (R49). -/
def State.frameTick (s : State) : State :=
  if s.boundaryDue then s.boundaryEvent else { s with tickCount := s.tickCount + 1 }

end Sys2Proof.Machine
end

