-- ==== Sys2Proof/Machine/Ports.lean ====
section
/-! DEFINITION. The commands on RST#, PRESn and REQn: reset, attach, detach, request, withdrawal, release. -/

namespace Sys2Proof.Machine

/-- The outcome of a command that only ever goes on. -/
abbrev Result := Host.Outcome State Fault Refusal

/-- Power-on reset: every register at its reset value; the input pins, the strap values last sampled and the queue of
waiting commands are not registers of the reset (R27, R45, R47, R90, R95, R96, R99, R125, R142, R146, R188). -/
def State.powerOn (s : State) : State :=
  { State.reset with
    pres := s.pres, req := s.req, sel := s.sel, supervisor := s.supervisor, windowBase := s.windowBase
    pending := s.pending }

/-- RESET_ASSERT (R125): every record returns to its reset value and everything in flight is abandoned. -/
def execResetAssert (s : State) : Result := .next s.powerOn

/-- RESET_RELEASE (R123, R124, R125, R139): the straps are sampled and each port whose PRESn is high becomes IDLE. RST#
already high does not rise (log entry 1). -/
def execResetRelease (sup : Port) (wb : BitVec 4) (s : State) : Result :=
  if s.rstLow then
    .next
      { s.powerOn with
        rstLow := false, supervisor := sup, windowBase := wb
        ports := bankMap (fun _ present => { PortRecord.initial with state := if present then .idle else .detached }) s.pres }
  else .next s

/-- The port record an attach gives (R126). -/
def PortRecord.attached : PortRecord := { state := .idle, fenceCount := 0, ntfEnable := true, lastYield := .none }

/-- ATTACH (R126). PRESn goes high; a DETACHED port becomes IDLE with the attach values. -/
def execAttach (p : Port) (s : State) : Result :=
  let s0 := { s with pres := bankSet s.pres p true }
  if s.rstLow then .next s0
  else if (s.port p).state = .detached then .next (s0.setPort p PortRecord.attached)
  else .next s0

/-- The Command Unit at a detach (R130): the port leaves the queue, a LIST walk of its own stops, a RESET_TABLE walk of
its own runs on with its reply discarded, and the slot takes its reset values. -/
def State.detachCommands (s : State) (p : Port) : State :=
  { s.setSlot p CommandSlot.initial with
    cmdQueue := s.cmdQueue.filter fun q => decide (q ≠ p)
    walk :=
      match s.walk with
      | none => none
      | some w =>
        if w.issuer = p then
          match w.kind with
          | .list _ _ _ => none
          | .resetTable retired _ => some { w with kind := .resetTable retired true }
        else some w }

/-- The end of the tenure that a detach of its holder brings (R120). -/
def State.detachTenure (s : State) (p : Port) : State :=
  match s.tenure with
  | none => s
  | some t => if t.holder = p then s.endTenure p .detached else s

/-- Every live reservation of a port retired (R29). -/
def State.retireOwned (s : State) (p : Port) : State :=
  allSlots.foldl (fun s k => if (s.liveAt k).any fun r => decide (r.owner = p) then s.retireRecord k else s) s

/-- All four codes of a port unbound (R76). -/
def State.unbindAll (s : State) (p : Port) : State :=
  { s with bindings := bankSet s.bindings p (Vector.replicate 4 none) }

/-- The Notice Unit at a detach (R131, R153): set emptied, latch at NONE, PORT_DETACHED for the supervisor unless the
port is the supervisor. -/
def State.detachNotices (s : State) (p : Port) : State :=
  let s1 := (s.setNotices p NoticeSet.initial).setLatch p Latch.initial
  if p = s.supervisor then s1 else s1.place s.supervisor .portDetached (.port p)

/-- The detach of a port that is not DETACHED (R129, R130, R131): tenure, waiting entry, reservations, bindings,
command slot and notice set, then the removal of the entry handed to the Tenure Monitor (R94). -/
def State.detachPort (s : State) (p : Port) : State :=
  (((((((s.detachTenure p).setWaiting p none).setPortState p .detached).retireOwned p).unbindAll p).detachCommands
    p).detachNotices p).testYield

/-- DETACH (R129). PRESn goes low; a port that is not DETACHED is detached. -/
def execDetach (p : Port) (s : State) : Result :=
  let s0 := { s with pres := bankSet s.pres p false }
  if s.rstLow then .next s0
  else if (s.port p).state = .detached then .next s0
  else .next (s0.detachPort p)

/-- REQUEST (R78, R79). SELn presents the code and REQn is high. A rise taken in IDLE makes a waiting entry; a rise in
another state, or a line that was high already, makes none. -/
def execRequest (p : Port) (c : SelCode) (s : State) : Result :=
  let s0 := { s with sel := bankSet s.sel p c, req := bankSet s.req p true }
  if s.rstLow ∨ bankGet s.req p = true then .next s0
  else if (s.port p).state = .idle then .next (s0.makeEntry p)
  else .next s0

/-- WITHDRAWAL (R80): REQn falls. In WAITING the entry is removed and the port becomes IDLE; the fall in any other
state is taken as that state takes it (R92, log entry 1). -/
def execWithdrawal (p : Port) (s : State) : Result := .next (s.requestFalls p)

/-- RELEASE (R111): REQn falls. In GRANTED or YIELDING the release completes or the drain begins; the fall in any
other state is taken as that state takes it (R119, log entry 1). -/
def execRelease (p : Port) (s : State) : Result := .next (s.requestFalls p)

end Sys2Proof.Machine
end

