-- ==== Sys2Proof/Machine/Arbiter.lean ====
section
/-! DEFINITION. The grant decision. -/

namespace Sys2Proof.Machine

/-- The drawing reservation of a granted entry: its handle if the record is ACTIVE (R91). -/
def State.grantDrawing (s : State) (p : Port) : Option Handle :=
  match (bankGet s.waiting p).bind (·.handle) with
  | none => none
  | some h => if (s.fresh h).any fun r => decide (r.state = .active) then some h else none

/-- The grant to the winner of a group (R91): entry removed, pointer set, port GRANTED, tenure opened. -/
def State.grant (s : State) (g : Group) (p : Port) : State :=
  let t : Tenure :=
    { holder := p, drawing := s.grantDrawing p, standing := (s.competitorTier p).getD .three, usage := 0, idleTicks := 0
      idleLimit := s.config.idle, spareLimit := s.config.spare, yield := none, tenureG := none, graceRemaining := none
      drainRemaining := none }
  { ((s.setWaiting p none).setPortState p .granted).setTenure (some t) with pointers := bankSet s.pointers g p }

/-- GRANT_DECISION (R86, R87, R88, R91): while the bus is free, the first eligible entry in group and rotation order is
granted; with none eligible no grant is made. -/
def execGrantDecision (s : State) : Result :=
  if s.rstLow ∨ s.busFree = false then .next s
  else
    match s.decision with
    | none => .next s
    | some (g, p) => .next (s.grant g p)

end Sys2Proof.Machine
end

