-- ==== Sys2Proof/Machine/Bus.lean ====
section
/-! DEFINITION. The commands of the Bus Monitor: address strobes, readies, and the readies named by the window access
they complete. -/

namespace Sys2Proof.Machine

/-- ADDRESS_STROBE (R98, R99, R140): a cycle of the tenure of cost 2 or 1 with its window mark, or a stray. -/
def execAddressStrobe (addr : Address) (write : Bool) (s : State) : Result :=
  if s.rstLow then .next s
  else
    match s.tenure, s.cycles.length with
    | some t, 0 =>
      .next { s with pendingOrder := s.pendingOrder ++ [.cycle { cost := 2, access := s.windowMark addr write t.holder }] }
    | some t, 1 =>
      .next { s with pendingOrder := s.pendingOrder ++ [.cycle { cost := 1, access := s.windowMark addr write t.holder }] }
    | _, _ => .next { s with pendingOrder := s.pendingOrder ++ [.stray] }

/-- READY (R99, R101, R113, R140). -/
def execReady (d : Byte) (s : State) : Result := .next (s.readyEvent d)

/-- A window write to this offset. -/
def WindowAccess.writes (o : Byte) (a : WindowAccess) : Bool := a.write && decide (a.offset = o)

/-- A window read of this offset. -/
def WindowAccess.reads (o : Byte) (a : WindowAccess) : Bool := !a.write && decide (a.offset = o)

/-- TRIGGER (R143, R144): the ready of a window write of a value other than 0 to offset 0x00. -/
def execTrigger (d : Byte) (s : State) : Result :=
  .next (s.readyOf (fun a => a.writes 0x00 && decide (d ≠ 0)) d)

/-- WINDOW_WRITE (R141, R143): the ready of a window write to an offset with no behaviour of its own, a write of 0 to
offset 0x00 among them. -/
def execWindowWrite (d : Byte) (s : State) : Result :=
  .next (s.readyOf (fun a => a.write && decide (a.offset ≠ 0x35) && (decide (a.offset ≠ 0x00) || decide (d = 0))) d)

/-- PORT_CONTROL_WRITE (R128): the ready of a window write to offset 0x35. -/
def execPortControlWrite (d : Byte) (s : State) : Result := .next (s.readyOf (fun a => a.writes 0x35) d)

/-- NOTICE_TAKE (R153, R193): the ready of a window read of offset 0x38; a read takes no byte from D[7:0]. -/
def execNoticeTake (s : State) : Result := .next (s.readyOf (fun a => a.reads 0x38) 0)

/-- TIME_SNAPSHOT (R52): the ready of a window read of offset 0x3C. -/
def execTimeSnapshot (s : State) : Result := .next (s.readyOf (fun a => a.reads 0x3C) 0)

end Sys2Proof.Machine
end

