-- ==== Sys2Proof/Machine/OwnerCommands.lean ====
section
/-! DEFINITION. The takes of the owner commands and of an undefined code. Each makes the checks of R150 in order, then
its effects and its reply, in the one event of the take (R147). -/

namespace Sys2Proof.Machine

/-- A code of the table of R198. -/
def definedCode (b : Byte) : Bool :=
  (decide (0x01 ≤ b.toNat) && decide (b.toNat ≤ 0x08)) || (decide (0x10 ≤ b.toNat) && decide (b.toNat ≤ 0x18))

/-- BAD_COMMAND at the take (R150). -/
def badTake (p : Port) (_c : Vector Byte 16) (s : State) : State := s.refuse p .badCommand

/-- BAD_COMMAND (R150). -/
def execBadCommand (s : State) : Result := .next (s.take (fun b => !definedCode b) badTake)

/-- The effects and reply of an admitted opening but for its notices (R12, R160, R176). -/
def State.admitOpening (s : State) (k : Slot) (owner : Port) (t : OpenTerms) : State × List Byte :=
  let r := s.newReservation owner t
  (s.writeOpening k r, handleBytes (s.handleAt k) ++ [liveStateCode r.state])

/-- OPEN at the take (R159, R160). -/
def openTake (p : Port) (c : Vector Byte 16) (s : State) : State :=
  match openTerms false c with
  | none => s.refuse p .badField
  | some t =>
    match s.openingSlot p t with
    | .error x => s.refuse p x
    | .ok k => (s.admitOpening k p t).1.complete p .done 1 (s.admitOpening k p t).2

/-- OPEN (R160). -/
def execOpen (s : State) : Result := .next (s.take (fun b => decide (b = 0x01)) openTake)

/-- The record's preempt forbids the named max tenure (R3, R162). -/
def preemptForbids (ch : Changes) (r : Reservation) : Bool :=
  r.preempt && ch.maxTenure.any fun n => decide (32 < n)

/-- The pending share a MODIFY leaves (R5, R36). -/
def newPending (ch : Changes) (r : Reservation) : Option Nat :=
  match ch.share with
  | none => r.pendingShare
  | some n => if n = r.share then none else some n

/-- The record with every named field changed (R20, R164). -/
def changeReservation (ch : Changes) (r : Reservation) : Reservation :=
  { r with
    pendingShare := newPending ch r
    maxTenure := ch.maxTenure.getD r.maxTenure
    priority := (ch.priority.bind priorityOfCode).getD r.priority
    leaseLength := ch.leaseLength.getD r.leaseLength
    tag := ch.tag.getD r.tag }

/-- The ruling on a MODIFY that names a share (R36): tested only where the contribution rises. -/
def State.changeRuling (s : State) (ch : Changes) (r : Reservation) : Option ReplyStatus :=
  let new := (changeReservation ch r).contribution
  if ch.share.isSome ∧ r.contribution < new then s.ruling (new - r.contribution) r.preempt else none

/-- The change reaches the Tenure Monitor: a max tenure of the drawing reservation (R109), or a priority that moves a
waiting entry (R85, R94). -/
def State.changeReaches (s : State) (ch : Changes) (h : Handle) (r : Reservation) : Bool :=
  (ch.maxTenure.isSome && s.tenure.any fun t => decide (t.drawing = some h))
    || (ch.priority.isSome && (bankGet s.waiting r.owner).any fun e => decide (e.handle = some h))

/-- An accepted MODIFY (R36, R163, R164). -/
def State.applyChanges (s : State) (ch : Changes) (h : Handle) (r : Reservation) : State :=
  let r1 := changeReservation ch r
  let s1 := (s.replaceContribution r r1).setLive h.slot r1
  if s1.changeReaches ch h r then s1.testYield else s1

/-- MODIFY at the take (R162, R163). -/
def modifyTake (p : Port) (c : Vector Byte 16) (s : State) : State :=
  let ch := rawChanges c
  let h := handleField c
  if changesInRange c = false then s.refuse p .badField
  else
    match s.fresh h with
    | none => s.refuse p .stale
    | some r =>
      if preemptForbids ch r then s.refuse p .badField
      else if r.owner ≠ p ∧ p ≠ s.supervisor then s.refuse p .notOwner
      else if r.state = .lapsed ∨ (ch.leaseLength.isSome ∧ r.leaseLength = 0) then s.refuse p .wrongState
      else
        match s.changeRuling ch r with
        | some x => s.refuse p x
        | none => (s.applyChanges ch h r).complete p .done 0 []

/-- MODIFY (R163). -/
def execModify (s : State) : Result := .next (s.take (fun b => decide (b = 0x02)) modifyTake)

/-- The record after a RENEW (R19). -/
def renewReservation (fenced : Bool) (r : Reservation) : Reservation :=
  if r.leaseLength = 0 then r
  else
    match r.state with
    | .active => { r with leaseRemaining := r.leaseLength }
    | .suspended => { r with leaseRemaining := r.leaseLength }
    | .lapsed =>
      if fenced then
        { r with state := .suspended, causes := { r.causes with fence := true }, leaseRemaining := r.leaseLength }
      else { r with state := .active, leaseRemaining := r.leaseLength }

/-- RENEW at the take (R165). -/
def renewTake (p : Port) (c : Vector Byte 16) (s : State) : State :=
  let h := handleField c
  match s.fresh h with
  | none => s.refuse p .stale
  | some r =>
    if r.owner ≠ p ∧ p ≠ s.supervisor then s.refuse p .notOwner
    else
      let r1 := renewReservation (decide ((s.port r.owner).state = .fenced)) r
      (s.setLive h.slot r1).complete p .done 1 [liveStateCode r1.state, lowByte r1.leaseRemaining]

/-- RENEW (R165). -/
def execRenew (s : State) : Result := .next (s.take (fun b => decide (b = 0x03)) renewTake)

/-- CLOSE at the take (R167). -/
def closeTake (p : Port) (c : Vector Byte 16) (s : State) : State :=
  let h := handleField c
  match s.fresh h with
  | none => s.refuse p .stale
  | some r => if r.owner ≠ p then s.refuse p .notOwner else (s.retire h.slot).complete p .done 0 []

/-- CLOSE (R167). -/
def execClose (s : State) : Result := .next (s.take (fun b => decide (b = 0x04)) closeTake)

/-- BIND at the take (R74, R169). -/
def bindTake (p : Port) (c : Vector Byte 16) (s : State) : State :=
  let h := handleField c
  match selField c with
  | none => s.refuse p .badField
  | some code =>
    match s.fresh h with
    | none => s.refuse p .stale
    | some r => if r.owner ≠ p then s.refuse p .notOwner else (s.setBinding p code (some h)).complete p .done 0 []

/-- BIND (R74). -/
def execBind (s : State) : Result := .next (s.take (fun b => decide (b = 0x05)) bindTake)

/-- UNBIND at the take (R75, R169). -/
def unbindTake (p : Port) (c : Vector Byte 16) (s : State) : State :=
  match selField c with
  | none => s.refuse p .badField
  | some code =>
    let s1 := s.setBinding p code none
    match s.binding p code with
    | none => s1.complete p .done 0 []
    | some h => s1.complete p .done 1 (handleBytes h)

/-- UNBIND (R75). -/
def execUnbind (s : State) : Result := .next (s.take (fun b => decide (b = 0x06)) unbindTake)

/-- QUERY at the take (R170). -/
def queryTake (p : Port) (c : Vector Byte 16) (s : State) : State :=
  let h := handleField c
  match s.fresh h with
  | none => s.refuse p .stale
  | some r =>
    if r.owner ≠ p ∧ p ≠ s.supervisor then s.refuse p .notOwner else s.complete p .done 1 (queryBytes h r)

/-- QUERY (R170). -/
def execQuery (s : State) : Result := .next (s.take (fun b => decide (b = 0x07)) queryTake)

/-- A walk begins (R148): the slot RUNNING, its reply status still PENDING, the first visit due at S0. -/
def State.beginWalk (s : State) (p : Port) (kind : WalkKind) : State :=
  { s.setSlot p { s.slot p with state := .running } with
    walk := some { issuer := p, next := 0, ticks := 0, kind := kind } }

/-- The port LIST lists: the port named from the supervisor port, none above 7; the issuer from any other (R171). -/
def State.listedPort (s : State) (p : Port) (c : Vector Byte 16) : Option Port :=
  if p = s.supervisor then portField c else some p

/-- LIST at the take (R171). -/
def listTake (p : Port) (c : Vector Byte 16) (s : State) : State :=
  match startField c, s.listedPort p c with
  | some start, some listed => s.beginWalk p (.list listed start [])
  | _, _ => s.refuse p .badField

/-- LIST (R171). -/
def execList (s : State) : Result := .next (s.take (fun b => decide (b = 0x08)) listTake)

end Sys2Proof.Machine
end

