-- ==== Sys2Proof/Machine/SupervisorCommands.lean ====
section
/-! DEFINITION. The takes of the supervisor commands. Each is refused NOT_SUPERVISOR from another port's slot (R174),
then makes its checks in the order of R150, its effects and its reply in the one event of the take. -/

namespace Sys2Proof.Machine

/-- OPEN_FOR at the take (R175, R176). -/
def openForTake (p : Port) (c : Vector Byte 16) (s : State) : State :=
  match portField c, openTerms true c with
  | some owner, some t =>
    if (s.port owner).state = .detached then s.refuse p .wrongState
    else
      match s.openingSlot owner t with
      | .error x => s.refuse p x
      | .ok k =>
        ((s.admitOpening k owner t).1.place owner .opened (.handle (s.handleAt k))).complete p .done 1
          (s.admitOpening k owner t).2
  | _, _ => s.refuse p .badField

/-- OPEN_FOR (R176). -/
def execOpenFor (s : State) : Result := .next (s.takeSupervisor 0x10 openForTake)

/-- REVOKE at the take (R178). -/
def revokeTake (p : Port) (c : Vector Byte 16) (s : State) : State :=
  let h := handleField c
  match s.fresh h with
  | none => s.refuse p .stale
  | some r => ((s.retire h.slot).place r.owner .revoked (.handle h)).complete p .done 0 []

/-- REVOKE (R178). -/
def execRevoke (s : State) : Result := .next (s.takeSupervisor 0x11 revokeTake)

/-- A record with COMMAND added (R14). -/
def suspendReservation (r : Reservation) : Reservation :=
  { r with
    state := .suspended
    causes := { r.causes with command := true }
    credit := if r.state = .active then 0 else r.credit }

/-- SUSPEND at the take (R14, R180). -/
def suspendTake (p : Port) (c : Vector Byte 16) (s : State) : State :=
  let h := handleField c
  match s.fresh h with
  | none => s.refuse p .stale
  | some r =>
    if r.state = .lapsed ∨ r.causes.command = true then s.refuse p .wrongState
    else
      let r1 := suspendReservation r
      ((((s.setLive h.slot r1).withdrawDrawing h r.cls).testYield).place r.owner .suspended (.handle h)).complete p .done 1
        [liveStateCode r1.state, causesByte r1.causes]

/-- SUSPEND (R180). -/
def execSuspend (s : State) : Result := .next (s.takeSupervisor 0x12 suspendTake)

/-- A record with COMMAND removed (R16). -/
def resumeReservation (r : Reservation) : Reservation :=
  { r with
    state := if r.causes.fence then r.state else .active
    causes := { r.causes with command := false } }

/-- RESUME at the take (R16, R181). -/
def resumeTake (p : Port) (c : Vector Byte 16) (s : State) : State :=
  let h := handleField c
  match s.fresh h with
  | none => s.refuse p .stale
  | some r =>
    if r.causes.command = false then s.refuse p .wrongState
    else
      let r1 := resumeReservation r
      ((s.setLive h.slot r1).placeIf r.owner (if r.causes.fence then none else some .resumed) (.handle h)).complete p .done 1
        [liveStateCode r1.state, causesByte r1.causes]

/-- RESUME (R181). -/
def execResume (s : State) : Result := .next (s.takeSupervisor 0x13 resumeTake)

/-- DEMOTE at the take (R89, R182). -/
def demoteTake (p : Port) (c : Vector Byte 16) (s : State) : State :=
  match portField c with
  | none => s.refuse p .badField
  | some q => ({ s with pointers := Vector.replicate 6 q }).complete p .done 0 []

/-- DEMOTE (R182). -/
def execDemote (s : State) : Result := .next (s.takeSupervisor 0x14 demoteTake)

/-- A record with FENCE removed (R17): ACTIVE with credit 0 where its cause set is then empty. -/
def clearFenceReservation (r : Reservation) : Reservation :=
  if r.causes.command then { r with causes := { r.causes with fence := false } }
  else { r with state := .active, credit := 0, causes := { r.causes with fence := false } }

/-- The clearing at one slot (R17): a record of the port that holds FENCE, with RESUMED where it becomes ACTIVE. -/
def State.clearFenceAt (s : State) (q : Port) (k : Slot) : State :=
  match s.liveAt k with
  | none => s
  | some r =>
    if r.owner = q ∧ r.causes.fence = true then
      (s.setLive k (clearFenceReservation r)).placeIf q (if r.causes.command then none else some .resumed)
        (.handle (s.handleAt k))
    else s

/-- The clearing of a fence (R17, R81, R135): the records in ascending slot order (R190), then REQn read. -/
def State.clearFence (s : State) (q : Port) : State :=
  let s1 := allSlots.foldl (fun s k => s.clearFenceAt q k) s
  if bankGet s1.req q then s1.makeEntry q else s1.setPortState q .idle

/-- CLEAR_FENCE at the take (R135, R183). -/
def clearFenceTake (p : Port) (c : Vector Byte 16) (s : State) : State :=
  match portField c with
  | none => s.refuse p .badField
  | some q =>
    if (s.port q).state ≠ .fenced then s.refuse p .wrongState
    else (s.clearFence q).complete p .done 1 [portStateCode ((s.clearFence q).port q).state]

/-- CLEAR_FENCE (R135). -/
def execClearFence (s : State) : Result := .next (s.takeSupervisor 0x15 clearFenceTake)

/-- The ruling on a SET_FRAME, against the new values alone (R38). -/
def State.frameRuling (s : State) (f : FrameConfig) : Option ReplyStatus :=
  if commitLimitOf f < s.committed then some .capacity
  else if preemptLimitOf f < s.preemptTotal then some .preemptLimit
  else none

/-- SET_FRAME at the take (R38, R184). -/
def setFrameTake (p : Port) (c : Vector Byte 16) (s : State) : State :=
  let f := frameFields c
  if frameInRange f = false then s.refuse p .badField
  else
    match s.frameRuling f with
    | some x => s.refuse p x
    | none => ({ s with pendingConfig := some f }).complete p .done 1 (twoBytes s.frameNumber.toNat)

/-- SET_FRAME (R184). -/
def execSetFrame (s : State) : Result := .next (s.takeSupervisor 0x16 setFrameTake)

/-- RESET_TABLE at the take (R185). -/
def resetTableTake (p : Port) (_c : Vector Byte 16) (s : State) : State := s.beginWalk p (.resetTable 0 false)

/-- RESET_TABLE (R185). -/
def execResetTable (s : State) : Result := .next (s.takeSupervisor 0x17 resetTableTake)

/-- Bit `n` of the binding mask and so on, from four flags (R199). -/
def maskByte (b : SelCode → Bool) : Byte :=
  (if b 0 then 0x01 else 0x00) ||| (if b 1 then 0x02 else 0x00) ||| (if b 2 then 0x04 else 0x00)
    ||| (if b 3 then 0x08 else 0x00)

/-- A handle's two bytes, or 0x0000 for none (R199). -/
def optionHandleBytes (h : Option Handle) : List Byte :=
  match h with
  | none => [0x00, 0x00]
  | some h => handleBytes h

/-- The QUERY_PORT layout from 0x12, 17 bytes (R187, R199). -/
def State.portBytes (s : State) (q : Port) : List Byte :=
  let e := bankGet s.waiting q
  let h := e.bind (·.handle)
  [portStateCode (s.port q).state, lowByte (s.port q).fenceCount, lastYieldCode (s.port q).lastYield,
    lowByte (s.owned q), maskByte fun c => (s.binding q c).isSome]
    ++ optionHandleBytes (s.binding q 0) ++ optionHandleBytes (s.binding q 1) ++ optionHandleBytes (s.binding q 2)
    ++ optionHandleBytes (s.binding q 3)
    ++ [(if e.isSome then 0x01 else 0x00) ||| (if h.isSome then 0x02 else 0x00)] ++ optionHandleBytes h
    ++ [rankCode (s.portRank q)]

/-- QUERY_PORT at the take (R187). -/
def queryPortTake (p : Port) (c : Vector Byte 16) (s : State) : State :=
  match portField c with
  | none => s.refuse p .badField
  | some q => s.complete p .done 1 (s.portBytes q)

/-- QUERY_PORT (R187). -/
def execQueryPort (s : State) : Result := .next (s.takeSupervisor 0x18 queryPortTake)

end Sys2Proof.Machine
end

