-- ==== Sys2Proof/Machine/Time.lean ====
section
/-! DEFINITION. The commands of time: the tick, the events of its limits, and the boundary sweep's visit. A tick does
what every block does at a tick, the event of a limit it reaches included; the events of the limits are commands of
their own as well, so that each may be taken before or after another event (log entry 3). The visits and takes that may
wait no longer come first (log entries 4 and 18). -/

namespace Sys2Proof.Machine

/-! ## Takes that come before a visit -/

/-- What a take does with a captured record of this code (R150, R198). -/
def takeOf (b : Byte) (p : Port) (c : Vector Byte 16) (s : State) : State :=
  match b.toNat with
  | 0x01 => openTake p c s
  | 0x02 => modifyTake p c s
  | 0x03 => renewTake p c s
  | 0x04 => closeTake p c s
  | 0x05 => bindTake p c s
  | 0x06 => unbindTake p c s
  | 0x07 => queryTake p c s
  | 0x08 => listTake p c s
  | 0x10 => supervisorOnly openForTake p c s
  | 0x11 => supervisorOnly revokeTake p c s
  | 0x12 => supervisorOnly suspendTake p c s
  | 0x13 => supervisorOnly resumeTake p c s
  | 0x14 => supervisorOnly demoteTake p c s
  | 0x15 => supervisorOnly clearFenceTake p c s
  | 0x16 => supervisorOnly setFrameTake p c s
  | 0x17 => supervisorOnly resetTableTake p c s
  | 0x18 => supervisorOnly queryPortTake p c s
  | _ => badTake p c s

/-- The take that is due, whatever its code (R147). -/
def State.takeFront (s : State) : State := s.take (fun _ => true) fun p c => takeOf (byteAt c 0) p c

/-- The Command Unit's next event: a visit of its walk, or the take that is due (R147, R148). -/
def State.commandStep (s : State) : State := if s.walk.isSome then s.walkStep else s.takeFront

/-- At most this many events of the Command Unit empty its queue: a take and at most thirty-two visits for each port. -/
def State.commandWork (s : State) : Nat :=
  33 * s.cmdQueue.length +
    match s.walk with
    | none => 0
    | some w => 32 - w.next.val

/-- A RENEW that its owner or the supervisor triggered before the last boundary names the LAPSED record of this slot and
waits for its take, which comes before the visit that would retire the record (R65, R166). -/
def State.renewWaits (s : State) (k : Slot) : Bool :=
  (s.liveAt k).any fun r =>
    decide (r.state = .lapsed) && s.cmdQueue.any fun p =>
      !bankGet s.late p && (decide (r.owner = p) || decide (p = s.supervisor))
        && (s.slot p).captured.any fun c => decide (byteAt c 0 = 0x03) && decide (handleField c = s.handleAt k)

/-- The events of the Command Unit up to the take of a RENEW that comes before the visit to this slot, at most `fuel` of
them (R166). -/
def State.takeAhead (s : State) (k : Slot) (fuel : Nat) : State :=
  match fuel with
  | 0 => s
  | fuel + 1 => if s.renewWaits k then s.commandStep.takeAhead k fuel else s

/-! ## Visits that may wait no longer -/

/-- The visits that a running sweep has still to take, at most `fuel` of them, each after the takes that come before it
(R55, R166). -/
def State.sweepRest (s : State) (fuel : Nat) : State :=
  match fuel with
  | 0 => s
  | fuel + 1 =>
    match s.sweep with
    | none => s
    | some k => (s.takeAhead k s.commandWork).sweepStep.sweepRest fuel

/-- A running sweep taken to its end (R55). -/
def State.finishSweep (s : State) : State := s.sweepRest 32

/-- The walk visits overdue at tick `n` since the take, at most `fuel` of them (R149). -/
def State.overdueWalk (s : State) (n fuel : Nat) : State :=
  match fuel with
  | 0 => s
  | fuel + 1 => if s.walk.any fun w => decide (w.next.val < n) then s.walkStep.overdueWalk n fuel else s

/-- The tick counted at the walk in progress, and the walk visits it finds overdue taken (R149). -/
def State.tickWalk (s : State) : State :=
  match s.walk with
  | none => s
  | some w => State.overdueWalk { s with walk := some { w with ticks := w.ticks + 1 } } (w.ticks + 1) 32

/-- The visits that must be taken no later than this tick: the walk's (R149), and the rest of the sweep when the tick
would take the tick count to 16 (R55). -/
def State.takeOverdue (s : State) : State :=
  if s.tickCount + 1 < Config.sweepTicks then s.tickWalk else s.tickWalk.finishSweep

/-! ## The commands -/

/-- TICK (R49, R55, R103, R114, R116, R149): the overdue visits, the Tenure Monitor's counts, the tick count. -/
def execTick (s : State) : Result :=
  if s.rstLow then .next s else .next s.takeOverdue.tenureTick.frameTick

/-- BOUNDARY (R50), where the next tick reaches FT. -/
def execBoundary (s : State) : Result :=
  if s.rstLow ∨ s.boundaryDue = false then .next s else .next s.takeOverdue.boundaryEvent

/-- IDLE_LIMIT (R103, R106, R110), where this tick takes the idle count to the limit with a competitor waiting. -/
def execIdleLimit (s : State) : Result := if s.rstLow ∨ s.idleDue = false then .next s else .next s.idleTick

/-- GRACE_EXPIRY (R116, R117, R118), where this tick takes grace remaining to 0 with REQn high. -/
def execGraceExpiry (s : State) : Result :=
  match s.rstLow, s.graceDue with
  | false, some p => .next (s.expireGrace p)
  | _, _ => .next s

/-- DRAIN_EXPIRY (R114), where this tick takes drain remaining to 0 with cycles outstanding. -/
def execDrainExpiry (s : State) : Result :=
  match s.rstLow, s.drainDue with
  | false, some p => .next (s.expireDrain p)
  | _, _ => .next s

/-- SWEEP_VISIT (R54, R56), where a sweep is running; the visit to a LAPSED record whose RENEW was triggered before the
boundary is due only after that RENEW's take (R166). -/
def execSweepVisit (s : State) : Result :=
  if s.rstLow ∨ s.sweep.any s.renewWaits = true then .next s else .next s.sweepStep

end Sys2Proof.Machine
end

