-- ==== Sys2Proof/Machine/Walks.lean ====
section
/-! DEFINITION. The visits of the walks. -/

namespace Sys2Proof.Machine

/-- A LIST walk is in progress. -/
def State.listing (s : State) : Bool :=
  s.walk.any fun w =>
    match w.kind with
    | .list _ _ _ => true
    | .resetTable _ _ => false

/-- A RESET_TABLE walk is in progress. -/
def State.resetting (s : State) : Bool :=
  s.walk.any fun w =>
    match w.kind with
    | .list _ _ _ => false
    | .resetTable _ _ => true

/-- LIST_VISIT (R148, R172), where a LIST walk is running. -/
def execListVisit (s : State) : Result := if s.rstLow ∨ s.listing = false then .next s else .next s.walkStep

/-- RESET_TABLE_VISIT (R28, R148, R185), where a RESET_TABLE walk is running. -/
def execResetTableVisit (s : State) : Result :=
  if s.rstLow ∨ s.resetting = false then .next s else .next s.walkStep

end Sys2Proof.Machine
end

