-- ==== Sys2Proof/Machine/Dispatch.lean ====
section
/-! DEFINITION. One arm per command, each a direct call of its meaning. -/

namespace Sys2Proof.Machine

def exec (i : Instr) (s : State) : Host.Outcome State Fault Refusal :=
  match i with
  | .resetAssert => Sys2Proof.Machine.execResetAssert s
  | .resetRelease sup wb => Sys2Proof.Machine.execResetRelease sup wb s
  | .attach p => Sys2Proof.Machine.execAttach p s
  | .detach p => Sys2Proof.Machine.execDetach p s
  | .request p sel => Sys2Proof.Machine.execRequest p sel s
  | .withdrawal p => Sys2Proof.Machine.execWithdrawal p s
  | .release p => Sys2Proof.Machine.execRelease p s
  | .addressStrobe addr write => Sys2Proof.Machine.execAddressStrobe addr write s
  | .ready data => Sys2Proof.Machine.execReady data s
  | .idleLimit => Sys2Proof.Machine.execIdleLimit s
  | .graceExpiry => Sys2Proof.Machine.execGraceExpiry s
  | .drainExpiry => Sys2Proof.Machine.execDrainExpiry s
  | .boundary => Sys2Proof.Machine.execBoundary s
  | .sweepVisit => Sys2Proof.Machine.execSweepVisit s
  | .grantDecision => Sys2Proof.Machine.execGrantDecision s
  | .trigger value => Sys2Proof.Machine.execTrigger value s
  | .windowWrite value => Sys2Proof.Machine.execWindowWrite value s
  | .portControlWrite value => Sys2Proof.Machine.execPortControlWrite value s
  | .noticeTake => Sys2Proof.Machine.execNoticeTake s
  | .timeSnapshot => Sys2Proof.Machine.execTimeSnapshot s
  | .takeBadCommand => Sys2Proof.Machine.execBadCommand s
  | .takeOpen => Sys2Proof.Machine.execOpen s
  | .takeModify => Sys2Proof.Machine.execModify s
  | .takeRenew => Sys2Proof.Machine.execRenew s
  | .takeClose => Sys2Proof.Machine.execClose s
  | .takeBind => Sys2Proof.Machine.execBind s
  | .takeUnbind => Sys2Proof.Machine.execUnbind s
  | .takeQuery => Sys2Proof.Machine.execQuery s
  | .takeList => Sys2Proof.Machine.execList s
  | .listVisit => Sys2Proof.Machine.execListVisit s
  | .takeOpenFor => Sys2Proof.Machine.execOpenFor s
  | .takeRevoke => Sys2Proof.Machine.execRevoke s
  | .takeSuspend => Sys2Proof.Machine.execSuspend s
  | .takeResume => Sys2Proof.Machine.execResume s
  | .takeDemote => Sys2Proof.Machine.execDemote s
  | .takeClearFence => Sys2Proof.Machine.execClearFence s
  | .takeSetFrame => Sys2Proof.Machine.execSetFrame s
  | .takeResetTable => Sys2Proof.Machine.execResetTable s
  | .resetTableVisit => Sys2Proof.Machine.execResetTableVisit s
  | .takeQueryPort => Sys2Proof.Machine.execQueryPort s
  | .tick => Sys2Proof.Machine.execTick s

end Sys2Proof.Machine
end

