-- ==== Sys2Proof/Safety.lean ====
section
/-! DEFINITION. What counts as a safe state, in the terms the statements use: the laws the spec states of every moment,
each a check on one state. -/

namespace Sys2Proof.Machine

/-- The sum of a measure over the live records. -/
def State.liveSum (s : State) (f : Reservation → Nat) : Nat :=
  (allSlots.map fun k =>
    match s.liveAt k with
    | none => 0
    | some r => f r).sum

/-- The committed and preempt totals are the sums of the contributions (R31). -/
def State.accountExact (s : State) : Prop :=
  s.committed = s.liveSum Reservation.contribution ∧
    s.preemptTotal = s.liveSum fun r => preemptPart r r.contribution

/-- The totals fit a configuration (R33). -/
def State.totalsFit (s : State) (f : FrameConfig) : Prop :=
  s.committed ≤ commitLimitOf f ∧ s.preemptTotal ≤ preemptLimitOf f

/-- The totals fit the configuration in force and a pending one (R33). -/
def State.limitsKept (s : State) : Prop := s.totalsFit s.config ∧ ∀ f, s.pendingConfig = some f → s.totalsFit f

/-- Both configurations are in range (R46), the tick count is below FT (R49), and a running sweep is within the first
sixteen ticks (R55). -/
def State.timeSound (s : State) : Prop :=
  frameInRange s.config = true ∧ (∀ f, s.pendingConfig = some f → frameInRange f = true) ∧
    s.tickCount < s.config.frameTicks ∧ (s.sweep ≠ none → s.tickCount < Config.sweepTicks)

/-- The laws of one live record: the ranges of R1 and R3, credit within the share and 0 unless ACTIVE (R4), the cause
set nonempty exactly when SUSPENDED (R13), and lease remaining 0 exactly for a permanent or LAPSED record (R6, R18). -/
def Reservation.sound (r : Reservation) : Prop :=
  (1 ≤ r.share ∧ r.share ≤ 65535) ∧ (∀ n, r.pendingShare = some n → 1 ≤ n ∧ n ≤ 65535) ∧
    (1 ≤ r.maxTenure ∧ r.maxTenure ≤ 1023) ∧ (r.preempt = true → r.cls = .fixed ∧ r.maxTenure ≤ 32) ∧
    r.leaseLength ≤ 255 ∧ r.leaseRemaining ≤ 255 ∧ r.shortfall ≤ 255 ∧
    r.credit ≤ r.share ∧ (r.state ≠ .active → r.credit = 0) ∧
    (r.state = .suspended ↔ r.causes.command = true ∨ r.causes.fence = true) ∧
    (r.leaseRemaining = 0 ↔ r.leaseLength = 0 ∨ r.state = .lapsed) ∧ (r.state = .lapsed → r.leaseLength ≠ 0)

/-- Every live record keeps its laws. -/
def State.recordsSound (s : State) : Prop := ∀ k r, s.liveAt k = some r → r.sound

/-- A notice set holds at most sixteen entries, no two of the same kind and subject, each counted 1 to 15 (R188). -/
def NoticeSet.sound (n : NoticeSet) : Prop :=
  n.entries.length ≤ 16 ∧ n.entries.Pairwise (fun a b => ¬(a.kind = b.kind ∧ a.subject = b.subject)) ∧
    ∀ e ∈ n.entries, 1 ≤ e.count ∧ e.count ≤ 15

/-- Every notice set keeps its laws, and a DETACHED port's set is empty (R131, R188, R196). -/
def State.noticesSound (s : State) : Prop :=
  ∀ p, (bankGet s.notices p).sound ∧
    ((s.port p).state = .detached → bankGet s.notices p = NoticeSet.initial ∧ bankGet s.latches p = Latch.initial)

/-- A waiting entry stands for a port exactly when the port is WAITING (R77). -/
def State.waitingSound (s : State) : Prop := ∀ p, (bankGet s.waiting p).isSome = true ↔ (s.port p).state = .waiting

/-- The tenure record as the state of its holder requires (R96, R110, R111): nothing asked in GRANTED, grace running in
YIELDING, drain running with a cycle outstanding in DRAINING. -/
def State.tenureShape (s : State) (t : Tenure) : Prop :=
  match (s.port t.holder).state with
  | .granted => t.yield = none ∧ t.tenureG = none ∧ t.graceRemaining = none ∧ t.drainRemaining = none
  | .yielding => t.yield ≠ none ∧ t.tenureG ≠ none ∧ t.graceRemaining ≠ none ∧ t.drainRemaining = none
  | .draining => t.tenureG ≠ none ∧ t.graceRemaining = none ∧ t.drainRemaining ≠ none ∧ s.cycles ≠ []
  | _ => False

/-- The holder of the tenure in progress (R96). -/
def State.holder (s : State) : Option Port := s.tenure.map (·.holder)

/-- One holder: a port holds the bus exactly when it is the holder of the tenure in progress, whose record has the
shape its state requires (R86, R91, R96); the list holds at most two cycles, of cost 1 or 2, and none while no tenure
is in progress (R98); a window mark names the holder (R140); the supervisor port is never FENCED (R124). -/
def State.busSound (s : State) : Prop :=
  (∀ p, (s.port p).state.holdsBus = true ↔ s.holder = some p) ∧
    (∀ t, s.tenure = some t → s.tenureShape t) ∧
    s.cycles.length ≤ 2 ∧ (∀ c ∈ s.cycles, c.cost = 1 ∨ c.cost = 2) ∧ (s.tenure = none → s.cycles = []) ∧
    (∀ c ∈ s.cycles, ∀ a, c.access = some a → s.holder = some a.port) ∧ ∀ p, (s.port p).state = .fenced → p ≠ s.supervisor

/-- A handle names a live reservation of this port (R9). -/
def State.owns (s : State) (p : Port) (h : Handle) : Prop := ∃ r, s.fresh h = some r ∧ r.owner = p

/-- No block holds the handle of a record that is no longer live: bindings and waiting entries name reservations of
their own port (R26, R73, R77), and the drawing reservation is an ACTIVE one of the holder (R91, R108). -/
def State.handlesSound (s : State) : Prop :=
  (∀ p c h, s.binding p c = some h → s.owns p h) ∧
    (∀ p e h, bankGet s.waiting p = some e → e.handle = some h → s.owns p h) ∧
    ∀ t h, s.tenure = some t → t.drawing = some h →
      ∃ r, s.fresh h = some r ∧ r.owner = t.holder ∧ r.state = .active

/-- The reply as the state of its slot requires (R145, R148): NONE in IDLE and PENDING in QUEUED and RUNNING, each with count
and data 0; the status of a completed command in DONE, with count and data 0 for a refusal. -/
def CommandSlot.replySound (c : CommandSlot) : Prop :=
  match c.state with
  | .idle => c.status = .none ∧ c.count = 0 ∧ c.data = Vector.replicate 30 0
  | .queued => c.status = .pending ∧ c.count = 0 ∧ c.data = Vector.replicate 30 0
  | .running => c.status = .pending ∧ c.count = 0 ∧ c.data = Vector.replicate 30 0
  | .done =>
    c.status ≠ .none ∧ c.status ≠ .pending ∧ (c.status ≠ .done → c.count = 0 ∧ c.data = Vector.replicate 30 0)

/-- The command queue holds a port at most once and exactly when its slot is QUEUED (R146); a slot is RUNNING exactly
when its port's walk is in progress with its reply still to write (R130, R148); a captured record stands in every slot
that is not IDLE (R142); and every reply is as its slot's state requires (R145). -/
def State.commandsSound (s : State) : Prop :=
  s.cmdQueue.Nodup ∧ (∀ p, p ∈ s.cmdQueue ↔ (s.slot p).state = .queued) ∧
    (∀ p, (s.slot p).state = .running ↔
      ∃ w, s.walk = some w ∧ w.issuer = p ∧ ∀ n, w.kind ≠ .resetTable n true) ∧
    (∀ p, (s.slot p).captured = none ↔ (s.slot p).state = .idle) ∧ ∀ p, (s.slot p).replySound

/-- The owner of every live record is attached and no port owns more than eight (R11); every queued port is attached
(R130). -/
def State.ownersSound (s : State) : Prop :=
  (∀ k r, s.liveAt k = some r → (s.port r.owner).state ≠ .detached) ∧ (∀ p, s.owned p ≤ 8) ∧
    ∀ p, p ∈ s.cmdQueue → (s.port p).state ≠ .detached

/-- The walk in progress has taken every visit that its ticks ask for (R149). -/
def State.walkOnTime (s : State) : Prop := ∀ w, s.walk = some w → w.ticks ≤ w.next.val

/-- No yield condition of R106 is met and left untested: a GRANTED holder that has not been asked to yield meets none. -/
def State.yieldsAsked (s : State) : Prop :=
  ∀ t, s.tenure = some t → s.mayYield t = true → s.yieldCondition t = none

/-- The take of this port's captured record is due, the rest of the queue behind it (R147), and its code is this. -/
def State.takeDue (s : State) (p : Port) (rest : List Port) (c : Vector Byte 16) (code : Byte) : Prop :=
  s.rstLow = false ∧ s.walk = none ∧ s.cmdQueue = p :: rest ∧ (s.slot p).captured = some c ∧ byteAt c 0 = code

/-- The takes with their command codes, those of the supervisor commands (R198). -/
def supervisorTakes : List (Instr × Byte) :=
  [(.takeOpenFor, 0x10), (.takeRevoke, 0x11), (.takeSuspend, 0x12), (.takeResume, 0x13), (.takeDemote, 0x14),
    (.takeClearFence, 0x15), (.takeSetFrame, 0x16), (.takeResetTable, 0x17), (.takeQueryPort, 0x18)]

/-- The takes with their command codes (R198). -/
def commandTakes : List (Instr × Byte) :=
  [(.takeOpen, 0x01), (.takeModify, 0x02), (.takeRenew, 0x03), (.takeClose, 0x04), (.takeBind, 0x05), (.takeUnbind, 0x06),
    (.takeQuery, 0x07), (.takeList, 0x08)] ++ supervisorTakes

/-- A slot's record holding these live fields, its generation kept (R8, R12). -/
def TableRecord.holding (x : TableRecord) (r : Reservation) : TableRecord := { x with live := some r }

/-- The next ready completes this cycle of the tenure in progress, the rest of the pending order behind it (R99). -/
def State.completes (s : State) (c : Cycle) (rest : List Strobe) : Prop :=
  s.rstLow = false ∧ s.pendingOrder = .cycle c :: rest ∧ s.tenure ≠ none

/-- The rotation group in which a port's entry is eligible, if it is (R83, R87). -/
def State.groupOf (s : State) (p : Port) : Option Group := (s.portRank p).bind Rank.group?

/-- The slot is the lowest-numbered FREE slot (R11). -/
def State.isLowestFree (s : State) (k : Slot) : Prop := s.liveAt k = none ∧ ∀ j, j < k → s.liveAt j ≠ none

end Sys2Proof.Machine
end

