-- ==== Sys2Proof/Certificates/Slice0/Obligations.lean ====
section
/-! DEFINITION. The statements for the provers. A command's statement gives its whole next state: the state with the
fields named replaced and every other field as it was. Effects that several commands share (the yield test, the charge, a
placement, a retirement, a completion) are named by their operation, and each operation has a statement of its own. -/

open Sys2Proof Sys2Proof.Machine

/-! ## The step, reset and the pins -/

/-- The step takes the front command. That an empty queue idles is the model's choice (log entry 12). -/
def Obligations.StepRunsFrontCommand : Prop :=
  ∀ (c : Instr) (rest : List Instr) (s : State),
    step { s with pending := c :: rest } = exec c { s with pending := rest } ∧
      (s.pending = [] → step s = .next s)

/-- RESET_ASSERT leaves every record at its reset value. That the pin levels, the strap values last sampled and the
waiting commands stay as they are is the model's reading (log entry 17), and `late` is the model's own (log entry 18). -/
def Obligations.ResetAssertGivesResetValues : Prop :=
  ∀ s : State, exec .resetAssert s = .next
    { s with
      rstLow := true
      driven := none
      ports := Vector.replicate 8 { state := .detached, fenceCount := 0, ntfEnable := true, lastYield := .none }
      table := Vector.replicate 32 { generation := 0, live := none }
      bindings := Vector.replicate 8 (Vector.replicate 4 none)
      committed := 0
      preemptTotal := 0
      pendingConfig := none
      config := { capacity := 4096, reserve := 512, frameTicks := 1000, grace := 8, idle := 16, spare := 64 }
      tickCount := 0
      frameNumber := 0
      sweep := none
      snapshots := Vector.replicate 8 { frameNumber := 0, tickCount := 0 }
      waiting := Vector.replicate 8 none
      pointers := Vector.replicate 6 7
      tenure := none
      pendingOrder := []
      slots := Vector.replicate 8
        { state := .idle, area := Vector.replicate 16 0, captured := none, status := .none, count := 0
          data := Vector.replicate 30 0, refused := false }
      cmdQueue := []
      walk := none
      late := Vector.replicate 8 false
      notices := Vector.replicate 8 { entries := [], overrun := false }
      latches := Vector.replicate 8 { kind := .none, subject := .none, count := 0 } }

/-- RESET_RELEASE from RST# low: the straps sampled, present ports IDLE with the attach values, everything else at its
reset value, no entry and no notice. With RST# high already there is no rise (the model's reading, log entry 1). -/
def Obligations.ResetReleaseSamplesStraps : Prop :=
  ∀ (sup : Port) (wb : BitVec 4) (s : State),
    (s.rstLow = true → ∃ t, exec (.resetRelease sup wb) s = .next t ∧ t.rstLow = false ∧ t.supervisor = sup ∧
      t.windowBase = wb ∧
      (∀ p, t.port p =
        { state := if bankGet s.pres p then .idle else .detached, fenceCount := 0, ntfEnable := true, lastYield := .none }) ∧
      t = { State.reset with
        rstLow := false, supervisor := sup, windowBase := wb, ports := t.ports, pres := s.pres, req := s.req, sel := s.sel
        pending := s.pending }) ∧
    (s.rstLow = false → exec (.resetRelease sup wb) s = .next s)

/-- ATTACH: a DETACHED port becomes IDLE with the attach values; in any other state, and while RST# is low, the level
alone changes. -/
def Obligations.AttachMakesDetachedPortIdle : Prop :=
  ∀ (p : Port) (s : State),
    (s.rstLow = false ∧ (s.port p).state = .detached → exec (.attach p) s = .next
      { s with
        pres := bankSet s.pres p true
        ports := bankSet s.ports p { state := .idle, fenceCount := 0, ntfEnable := true, lastYield := .none } }) ∧
    (s.rstLow = true ∨ (s.port p).state ≠ .detached →
      exec (.attach p) s = .next { s with pres := bankSet s.pres p true })

/-- DETACH of a port that is not DETACHED leaves nothing the port owned, named or asked for, and ends with the yield test:
`u` is the state before it, whose other ports' records stay but for a tenure that drew on a record the detach retires. With
the handles sound no tenure does, and with no yield condition left unasked the test changes nothing. At a DETACHED port, or
with RST# low (the model's reading, log entry 7), the fall moves the level alone. -/
def Obligations.DetachRemovesEveryTrace : Prop :=
  ∀ (p : Port) (s : State),
    (s.rstLow = true ∨ (s.port p).state = .detached →
      exec (.detach p) s = .next { s with pres := bankSet s.pres p false }) ∧
    (s.rstLow = false → (s.port p).state ≠ .detached → ∃ u v : State, exec (.detach p) s = .next u.testYield ∧
      v = { s with ports := bankSet s.ports p { s.port p with state := .detached } } ∧
      (s.holder = some p → u.tenure = none ∧ u.ports = v.ports ∧ u.pendingOrder = s.pendingOrder.map fun _ => .stray) ∧
      (s.holder ≠ some p → u.pendingOrder = s.pendingOrder ∧
        (∀ h r, s.tenure.bind (·.drawing) = some h → s.fresh h = some r → r.owner = p →
          u.tenure = (v.withdrawDrawing h r.cls).tenure ∧ u.ports = (v.withdrawDrawing h r.cls).ports) ∧
        ((∀ h r, s.tenure.bind (·.drawing) = some h → s.fresh h = some r → r.owner ≠ p) →
          u.tenure = s.tenure ∧ u.ports = v.ports)) ∧
      (s.handlesSound → s.yieldsAsked → u.testYield = u) ∧
      bankGet u.waiting p = none ∧
      (∀ q, q ≠ p → bankGet u.waiting q = (bankGet s.waiting q).map fun e =>
        if (e.handle.bind s.fresh).any (fun r => decide (r.owner = p)) then { handle := none } else e) ∧
      (∀ k r, s.liveAt k = some r → r.owner = p →
        u.record k = { generation := (s.record k).generation + 1, live := none }) ∧
      (∀ k, (∀ r, s.liveAt k = some r → r.owner ≠ p) → u.record k = s.record k) ∧
      u.committed + s.liveSum (fun r => if r.owner = p then r.contribution else 0) =
        max s.committed (s.liveSum fun r => if r.owner = p then r.contribution else 0) ∧
      u.preemptTotal + s.liveSum (fun r => if r.owner = p ∧ r.preempt = true then r.contribution else 0) =
        max s.preemptTotal (s.liveSum fun r => if r.owner = p ∧ r.preempt = true then r.contribution else 0) ∧
      (∀ c, u.binding p c = none) ∧ (∀ q c, q ≠ p → u.binding q c = s.binding q c) ∧
      u.slot p =
        { state := .idle, area := Vector.replicate 16 0, captured := none, status := .none, count := 0
          data := Vector.replicate 30 0, refused := false } ∧
      (∀ q, q ≠ p → u.slot q = s.slot q) ∧ u.cmdQueue = s.cmdQueue.filter (fun q => decide (q ≠ p)) ∧
      (s.walk = none → u.walk = none) ∧ (∀ w, s.walk = some w → w.issuer ≠ p → u.walk = some w) ∧
      (∀ w l st f, s.walk = some w → w.issuer = p → w.kind = .list l st f → u.walk = none) ∧
      (∀ w n d, s.walk = some w → w.issuer = p → w.kind = .resetTable n d →
        u.walk = some { w with kind := .resetTable n true }) ∧
      bankGet u.notices p = { entries := [], overrun := false } ∧
      bankGet u.latches p = { kind := .none, subject := .none, count := 0 } ∧
      (∀ q, q ≠ p → bankGet u.latches q = bankGet s.latches q) ∧
      (∀ q, q ≠ p → bankGet u.notices q =
        if q = s.supervisor ∧ (s.port q).state ≠ .detached then
          (bankGet s.notices q).insert .portDetached (.port p) else bankGet s.notices q) ∧
      u = { s with
        pres := bankSet s.pres p false, ports := u.ports, table := u.table, bindings := u.bindings
        committed := u.committed, preemptTotal := u.preemptTotal, waiting := u.waiting, tenure := u.tenure
        pendingOrder := u.pendingOrder, slots := u.slots, cmdQueue := u.cmdQueue, walk := u.walk
        notices := u.notices, latches := u.latches })

/-- REQUEST: a rise taken in IDLE samples SELn, adds an entry with the bound handle, makes the port WAITING and is handed
to the Tenure Monitor; any other rise makes no entry. That a REQUEST at a line already high is no rise is the model's
reading (log entry 7). -/
def Obligations.RequestInIdleMakesEntry : Prop :=
  ∀ (p : Port) (c : SelCode) (s : State),
    (s.rstLow = false ∧ bankGet s.req p = false ∧ (s.port p).state = .idle → exec (.request p c) s = .next
      (State.testYield
        { s with
          req := bankSet s.req p true
          sel := bankSet s.sel p c
          waiting := bankSet s.waiting p (some { handle := s.binding p c })
          ports := bankSet s.ports p { s.port p with state := .waiting } })) ∧
    (s.rstLow = true ∨ bankGet s.req p = true ∨ (s.port p).state ≠ .idle →
      exec (.request p c) s = .next { s with req := bankSet s.req p true, sel := bankSet s.sel p c })

/-- A fall of REQn: a withdrawal in WAITING, a release in GRANTED or YIELDING, no more than the level in any other state.
That the rows WITHDRAWAL and RELEASE name the same edge, and that with RST# low the level alone moves, is the model's reading
(log entries 1 and 7). -/
def Obligations.RequestFallWithdrawsOrReleases : Prop :=
  ∀ (p : Port) (s : State), ∀ i ∈ [Instr.withdrawal p, Instr.release p],
    (s.rstLow = false ∧ (s.port p).state = .waiting → exec i s = .next
      (State.testYield
        { s with
          req := bankSet s.req p false
          waiting := bankSet s.waiting p none
          ports := bankSet s.ports p { s.port p with state := .idle } })) ∧
    (∀ t, s.rstLow = false → ((s.port p).state = .granted ∨ (s.port p).state = .yielding) → s.tenure = some t →
      t.holder = p → s.cycles = [] → exec i s = .next
        { s with
          req := bankSet s.req p false
          ports := bankSet s.ports p { s.port p with state := .idle }
          tenure := none
          pendingOrder := s.pendingOrder.map fun _ => .stray }) ∧
    (∀ t, s.rstLow = false → ((s.port p).state = .granted ∨ (s.port p).state = .yielding) → s.tenure = some t →
      t.holder = p → s.cycles ≠ [] → exec i s = .next
        { s with
          req := bankSet s.req p false
          ports := bankSet s.ports p { s.port p with state := .draining }
          tenure := some
            { t with
              graceRemaining := none
              tenureG := some (t.tenureG.getD s.config.grace)
              drainRemaining := some (t.tenureG.getD s.config.grace) } }) ∧
    (s.rstLow = true ∨ (s.port p).state ∈ [PortState.detached, .idle, .draining, .fenced] →
      exec i s = .next { s with req := bankSet s.req p false })

/-! ## The bus and the window -/

/-- ADDRESS_STROBE: a cycle of cost 2 on an empty list, of cost 1 behind one cycle, else a stray; a cycle is marked with
its window access when the upper eight address bits are 0xF0 plus the sampled WB value. -/
def Obligations.StrobeJoinsListOrBecomesStray : Prop :=
  ∀ (addr : Address) (write : Bool) (s : State),
    (s.rstLow = true → exec (.addressStrobe addr write) s = .next s) ∧
    (s.rstLow = false → ∀ t, s.tenure = some t → s.cycles.length < 2 →
      exec (.addressStrobe addr write) s = .next
        { s with pendingOrder := s.pendingOrder ++
          [.cycle
            { cost := if s.cycles = [] then 2 else 1
              access :=
                if addr.extractLsb' 8 8 = 0xF0#8 + s.windowBase.setWidth 8 then
                  some { offset := addr.extractLsb' 0 8, write := write, port := t.holder }
                else none }] }) ∧
    (s.rstLow = false → s.tenure = none ∨ 2 ≤ s.cycles.length →
      exec (.addressStrobe addr write) s = .next { s with pendingOrder := s.pendingOrder ++ [.stray] })

/-- READY: a stray or an empty order completes nothing; a cycle of the tenure leaves the order and is charged, after a
window read is answered with the byte as it stands before the charge. The device drives D[7:0] for a read alone. -/
def Obligations.ReadyCompletesOldestEntry : Prop :=
  ∀ (d : Byte) (s : State),
    (s.rstLow = true → exec (.ready d) s = .next s) ∧
    (s.rstLow = false → s.pendingOrder = [] → exec (.ready d) s = .next { s with driven := none }) ∧
    (∀ rest, s.rstLow = false → s.pendingOrder = .stray :: rest →
      exec (.ready d) s = .next { s with pendingOrder := rest, driven := none }) ∧
    (∀ c rest, s.completes c rest → c.access = none → exec (.ready d) s = .next
      ((State.charge { s with pendingOrder := rest, driven := none } c.cost).finishDrain)) ∧
    (∀ c rest a, s.completes c rest → c.access = some a → a.write = false → a.offset ≠ 0x38 → a.offset ≠ 0x3C →
      exec (.ready d) s = .next
        ((State.charge
          { s with pendingOrder := rest, driven := some (s.windowByte a.port a.offset.toNat) } c.cost).finishDrain))

/-- TRIGGER: accepted in IDLE or DONE with the command area captured and the port last in the queue; refused in QUEUED
or RUNNING with the flag set and nothing else. The cycle is charged either way. The mark `late` of an accepted trigger is the
model's own (log entry 18). -/
def Obligations.TriggerIsAcceptedOrRefused : Prop :=
  ∀ (d : Byte) (s : State) (c : Cycle) (rest : List Strobe) (p : Port), d ≠ 0 → s.completes c rest →
    c.access = some { offset := 0x00, write := true, port := p } → ∀ i ∈ [Instr.trigger d, Instr.ready d],
    ((s.slot p).state = .idle ∨ (s.slot p).state = .done → exec i s = .next
      ((State.charge
        { s with
          pendingOrder := rest
          driven := none
          cmdQueue := s.cmdQueue ++ [p]
          late := bankSet s.late p true
          slots := bankSet s.slots p
            { state := .queued, area := bankSet (s.slot p).area 0 d, captured := some (bankSet (s.slot p).area 0 d)
              status := .pending, count := 0, data := Vector.replicate 30 0, refused := false } } c.cost).finishDrain)) ∧
    ((s.slot p).state = .queued ∨ (s.slot p).state = .running → exec i s = .next
      ((State.charge
        { s with
          pendingOrder := rest
          driven := none
          slots := bankSet s.slots p { s.slot p with refused := true } } c.cost).finishDrain))

/-- WINDOW_WRITE and PORT_CONTROL_WRITE: a byte of the command area is stored, a write of 0 to 0x00 among them; offset 0x35
takes the NTF enable from bit 0; every other offset is ignored. The cycle is charged in each case. -/
def Obligations.WindowWritesReachTheHoldersOwnState : Prop :=
  ∀ (d : Byte) (s : State) (c : Cycle) (rest : List Strobe) (o : Byte) (p : Port), s.completes c rest →
    c.access = some { offset := o, write := true, port := p } →
    (∀ k : Fin 16, o.toNat = k.val → (k ≠ 0 ∨ d = 0) → ∀ i ∈ [Instr.windowWrite d, Instr.ready d],
      exec i s = .next
        ((State.charge
          { s with
            pendingOrder := rest
            driven := none
            slots := bankSet s.slots p { s.slot p with area := bankSet (s.slot p).area k d } } c.cost).finishDrain)) ∧
    (16 ≤ o.toNat → o ≠ 0x35 → ∀ i ∈ [Instr.windowWrite d, Instr.ready d],
      exec i s = .next ((State.charge { s with pendingOrder := rest, driven := none } c.cost).finishDrain)) ∧
    (o = 0x35 → ∀ i ∈ [Instr.portControlWrite d, Instr.ready d],
      exec i s = .next
        ((State.charge
          { s with
            pendingOrder := rest
            driven := none
            ports := bankSet s.ports p { s.port p with ntfEnable := d.getLsbD 0 } } c.cost).finishDrain))

/-- NOTICE_TAKE: the overrun indication first, then the entry that ranks first, the earlier made among equals, else kind
NONE; the latch is answered as the byte at 0x38. Entries rank by kind, then by slot or port number. -/
def Obligations.NoticeTakeRemovesFirstRankedItem : Prop :=
  (∀ a b : NoticeEntry, a.rank < b.rank ↔
    kindRank a.kind < kindRank b.kind ∨ (kindRank a.kind = kindRank b.kind ∧ subjectRank a.subject < subjectRank b.subject)) ∧
  (∀ h : Handle, subjectRank (.handle h) = h.slot.val) ∧ (∀ p : Port, subjectRank (.port p) = p.val) ∧
  [NoticeKind.fenced, .forced, .portFenced, .portDetached, .revoked, .suspended, .resumed, .lapsed, .retired, .opened,
    .leaseLow, .shortfall, .tableReset, .cmdDone].map kindRank = [1, 2, 3, 4, 5, 6, 7, 8, 9, 10, 11, 12, 13, 14] ∧
  ∀ (s : State) (c : Cycle) (rest : List Strobe) (p : Port), s.completes c rest →
    c.access = some { offset := 0x38, write := false, port := p } → ∀ d, ∀ i ∈ [Instr.noticeTake, Instr.ready d],
    ((bankGet s.notices p).overrun = true → exec i s = .next
      ((State.charge
        { s with
          pendingOrder := rest
          driven := some 0x01
          notices := bankSet s.notices p { bankGet s.notices p with overrun := false }
          latches := bankSet s.latches p { kind := .overrun, subject := .none, count := 1 } } c.cost).finishDrain)) ∧
    ((bankGet s.notices p).overrun = false → (bankGet s.notices p).entries = [] → exec i s = .next
      ((State.charge
        { s with
          pendingOrder := rest
          driven := some 0x00
          latches := bankSet s.latches p { kind := .none, subject := .none, count := 0 } } c.cost).finishDrain)) ∧
    (∀ pre e post, (bankGet s.notices p).overrun = false → (bankGet s.notices p).entries = pre ++ e :: post →
      (∀ x ∈ pre, e.rank < x.rank) → (∀ x ∈ post, e.rank ≤ x.rank) → exec i s = .next
        ((State.charge
          { s with
            pendingOrder := rest
            driven := some (BitVec.ofNat 8 (kindRank e.kind + 1))
            notices := bankSet s.notices p { bankGet s.notices p with entries := pre ++ post }
            latches := bankSet s.latches p { kind := .notice e.kind, subject := e.subject, count := e.count } }
          c.cost).finishDrain))

/-- TIME_SNAPSHOT: the frame number and the tick count are copied to the port's snapshot, and the low byte of the frame
number is answered from it. -/
def Obligations.TimeSnapshotCopiesTime : Prop :=
  ∀ (s : State) (c : Cycle) (rest : List Strobe) (p : Port), s.completes c rest →
    c.access = some { offset := 0x3C, write := false, port := p } → ∀ d, ∀ i ∈ [Instr.timeSnapshot, Instr.ready d],
      exec i s = .next
        ((State.charge
          { s with
            pendingOrder := rest
            driven := some (s.frameNumber.setWidth 8)
            snapshots := bankSet s.snapshots p { frameNumber := s.frameNumber, tickCount := s.tickCount } }
          c.cost).finishDrain)

/-- The codes of R199, and the byte each offset of the window shows to a port; a handle subject and the configuration are
given as their two bytes, low byte first. -/
def Obligations.WindowShowsTheHoldersOwnBytes : Prop :=
  [ReplyStatus.none, .pending, .done, .capacity, .preemptLimit, .tableFull, .portLimit, .stale, .notOwner, .badField,
    .badCommand, .notSupervisor, .wrongState].map statusCode =
    [0x00, 0x01, 0x02, 0x10, 0x11, 0x12, 0x13, 0x14, 0x15, 0x16, 0x17, 0x18, 0x19] ∧
  [PortState.detached, .idle, .waiting, .granted, .yielding, .draining, .fenced].map portStateCode =
    [0x00, 0x01, 0x02, 0x03, 0x04, 0x05, 0x06] ∧
  [LastYield.none, .asked .preempted, .asked .spent, .asked .limit, .asked .idle, .asked .withdrawn, .cut, .forced].map
    lastYieldCode = [0x00, 0x01, 0x02, 0x03, 0x04, 0x05, 0x06, 0x07] ∧
  [LiveState.active, .suspended, .lapsed].map liveStateCode = [0x01, 0x02, 0x03] ∧
  [LatchKind.none, .overrun, .notice .fenced, .notice .forced, .notice .portFenced, .notice .portDetached, .notice .revoked,
    .notice .suspended, .notice .resumed, .notice .lapsed, .notice .retired, .notice .opened, .notice .leaseLow,
    .notice .shortfall, .notice .tableReset, .notice .cmdDone].map latchKindCode =
    [0x00, 0x01, 0x02, 0x03, 0x04, 0x05, 0x06, 0x07, 0x08, 0x09, 0x0A, 0x0B, 0x0C, 0x0D, 0x0E, 0x0F] ∧
  ∀ (s : State) (p : Port),
    (∀ k : Fin 16, s.windowByte p k.val = bankGet (s.slot p).area k) ∧
    s.windowByte p 0x10 = statusCode (s.slot p).status ∧
    s.windowByte p 0x11 = BitVec.ofNat 8 (s.slot p).count ∧
    (∀ k : Fin 30, s.windowByte p (0x12 + k.val) = bankGet (s.slot p).data k) ∧
    s.windowByte p 0x30 = portStateCode (s.port p).state ∧
    (s.windowByte p 0x31).toNat =
      (match (s.slot p).state with | .idle => 0 | .queued => 1 | .running => 2 | .done => 3)
        + (if (s.slot p).refused then 128 else 0) ∧
    s.windowByte p 0x32 = lastYieldCode (s.port p).lastYield ∧
    s.windowByte p 0x33 = BitVec.ofNat 8 (s.port p).fenceCount ∧
    ((bankGet s.notices p).entries.length ≤ 16 → (s.windowByte p 0x34).toNat =
      (bankGet s.notices p).entries.length + (if (bankGet s.notices p).overrun then 128 else 0)) ∧
    s.windowByte p 0x35 = (if (s.port p).ntfEnable then 1 else 0) ∧
    s.windowByte p 0x36 = BitVec.ofNat 8 p.val ∧
    s.windowByte p 0x37 = (if p = s.supervisor then 1 else 0) ∧
    s.windowByte p 0x38 = latchKindCode (bankGet s.latches p).kind ∧
    (∀ h, (bankGet s.latches p).subject = .handle h →
      (s.windowByte p 0x39).toNat + 256 * (s.windowByte p 0x3A).toNat = h.generation.val * 32 + h.slot.val) ∧
    (∀ q, (bankGet s.latches p).subject = .port q → s.windowByte p 0x39 = BitVec.ofNat 8 q.val ∧ s.windowByte p 0x3A = 0) ∧
    ((bankGet s.latches p).subject = .none → s.windowByte p 0x39 = 0 ∧ s.windowByte p 0x3A = 0) ∧
    s.windowByte p 0x3B = BitVec.ofNat 8 (bankGet s.latches p).count ∧
    (s.windowByte p 0x3C).toNat + 256 * (s.windowByte p 0x3D).toNat = (bankGet s.snapshots p).frameNumber.toNat ∧
    ((bankGet s.snapshots p).tickCount < 65536 →
      (s.windowByte p 0x3E).toNat + 256 * (s.windowByte p 0x3F).toNat = (bankGet s.snapshots p).tickCount) ∧
    (frameInRange s.config = true →
      [0x40, 0x42, 0x44, 0x46, 0x48, 0x4A].map (fun o => (s.windowByte p o).toNat + 256 * (s.windowByte p (o + 1)).toNat) =
        [s.config.capacity, s.config.reserve, s.config.frameTicks, s.config.grace, s.config.idle, s.config.spare]) ∧
    ∀ o, 0x4C ≤ o → s.windowByte p o = 0

/-- A completed cycle is charged: usage, credit and idle ticks; the spent FIXED record of a GRANTED holder brings SPENT,
a spent ELASTIC one standing 3; then the conditions of R106 are tested, where a yield may still be asserted. -/
def Obligations.ChargeOfCompletedCycle : Prop :=
  ∀ (s : State) (t : Tenure) (cost : Nat), s.tenure = some t →
    (t.drawing = none → s.charge cost = State.testYield
      { s with tenure := some { t with usage := min 65535 (t.usage + cost), idleTicks := 0 } }) ∧
    (∀ h r, t.drawing = some h → s.fresh h = some r → ¬(0 < r.credit ∧ r.credit ≤ cost) → s.charge cost = State.testYield
      { s with
        tenure := some { t with usage := min 65535 (t.usage + cost), idleTicks := 0 }
        table := bankSet s.table h.slot ((s.record h.slot).holding { r with credit := r.credit - cost }) }) ∧
    (∀ h r, t.drawing = some h → s.fresh h = some r → 0 < r.credit → r.credit ≤ cost → r.cls = .fixed →
      ((s.port t.holder).state = .granted ∧ t.yield = none → s.charge cost =
        { s with
          tenure := some
            { t with
              usage := min 65535 (t.usage + cost), idleTicks := 0, yield := some .spent
              tenureG := some s.config.grace, graceRemaining := some s.config.grace }
          ports := bankSet s.ports t.holder { s.port t.holder with state := .yielding, lastYield := .asked .spent }
          table := bankSet s.table h.slot ((s.record h.slot).holding { r with credit := 0 }) }) ∧
      ((s.port t.holder).state ≠ .granted ∨ t.yield ≠ none → s.charge cost =
        { s with
          tenure := some { t with usage := min 65535 (t.usage + cost), idleTicks := 0 }
          table := bankSet s.table h.slot ((s.record h.slot).holding { r with credit := 0 }) })) ∧
    (∀ h r, t.drawing = some h → s.fresh h = some r → 0 < r.credit → r.credit ≤ cost → r.cls = .elastic →
      s.charge cost = State.testYield
        { s with
          tenure := some { t with usage := min 65535 (t.usage + cost), idleTicks := 0, standing := .three }
          table := bankSet s.table h.slot ((s.record h.slot).holding { r with credit := 0 }) })

/-- A ready that leaves the list of a DRAINING holder empty completes its release, and otherwise ends nothing. -/
def Obligations.DrainCompletesWhenTheListIsEmpty : Prop :=
  ∀ s : State,
    (∀ t, s.tenure = some t → (s.port t.holder).state = .draining → s.cycles = [] → s.finishDrain =
      { s with
        ports := bankSet s.ports t.holder { s.port t.holder with state := .idle }
        tenure := none
        pendingOrder := s.pendingOrder.map fun _ => .stray }) ∧
    (∀ t, s.tenure = some t → (s.port t.holder).state ≠ .draining ∨ s.cycles ≠ [] → s.finishDrain = s) ∧
    (s.tenure = none → s.finishDrain = s)

/-! ## Competition, yields and the grant -/

/-- The rank of a waiting entry from its handle's record as it stands, its tier, and its place in the order of groups: tier 1,
tier 2 with priority 3 first, tier 3. -/
def Obligations.RankOfWaitingEntry : Prop :=
  ∀ s : State,
    s.entryRank { handle := none } = .tier3 ∧
    (∀ h r, s.fresh h = some r → r.cls = .fixed → r.preempt = true → r.state = .active → 0 < r.credit →
      s.entryRank { handle := some h } = .tier1) ∧
    (∀ h r, s.fresh h = some r → (r.cls = .fixed ∧ r.preempt = false ∨ r.cls = .elastic) → r.state = .active →
      0 < r.credit → s.entryRank { handle := some h } = .tier2 r.priority) ∧
    (∀ h r, s.fresh h = some r → r.cls = .elastic → r.state ≠ .active ∨ r.credit = 0 →
      s.entryRank { handle := some h } = .tier3) ∧
    (∀ h r, s.fresh h = some r → r.cls = .fixed → r.state ≠ .active ∨ r.credit = 0 →
      s.entryRank { handle := some h } = .held) ∧
    (∀ r : Reservation, r.sound → r.cls = .elastic → r.preempt = false) ∧
    (∀ x : Rank, (x.group? = none ↔ x = .held) ∧ (x.tier? = none ↔ x = .held)) ∧
    Rank.tier1.group? = some 0 ∧ [3, 2, 1, 0].map (fun g => (Rank.tier2 g).group?) = [some 1, some 2, some 3, some 4] ∧
    Rank.tier3.group? = some 5 ∧ Rank.tier1.tier? = some .one ∧ (∀ g, (Rank.tier2 g).tier? = some .two) ∧
    Rank.tier3.tier? = some .three ∧
    rankCode none = 0 ∧ rankCode (some .tier1) = 1 ∧ (∀ g : Fin 4, rankCode (some (.tier2 g)) = BitVec.ofNat 8 (2 + g.val)) ∧
    rankCode (some .tier3) = 6 ∧ rankCode (some .held) = 7

/-- The test of the Tenure Monitor: the first condition met, in the order PREEMPTED, LIMIT, IDLE, makes the yield of a
GRANTED holder whose yield is NONE, with tenure G and grace from G in force; else nothing changes. -/
def Obligations.YieldTestAssertsFirstConditionMet : Prop :=
  ∀ s : State,
    (s.tenure = none → s.testYield = s) ∧
    ∀ t, s.tenure = some t →
      ((s.port t.holder).state ≠ .granted ∨ t.yield ≠ none → s.testYield = s) ∧
      ((s.port t.holder).state = .granted → t.yield = none →
        ∀ preempted limit idle : Prop,
          (preempted ↔ (t.standing ≠ .one ∧ ∃ q, s.competitorTier q = some .one) ∨
            (t.standing = .three ∧ ∃ q, s.competitorTier q = some .two)) →
          (limit ↔ (∃ q, s.competitorTier q ≠ none) ∧
            ((t.standing = .three ∧ t.spareLimit ≤ t.usage) ∨
              (t.standing ≠ .three ∧ ∃ h r, t.drawing = some h ∧ s.fresh h = some r ∧ r.maxTenure ≤ t.usage))) →
          (idle ↔ (∃ q, s.competitorTier q ≠ none) ∧ t.idleLimit ≤ t.idleTicks) →
          (∀ reason, (preempted ∧ reason = .preempted ∨ ¬preempted ∧ limit ∧ reason = .limit ∨
              ¬preempted ∧ ¬limit ∧ idle ∧ reason = YieldReason.idle) → s.testYield =
            { s with
              tenure := some
                { t with yield := some reason, tenureG := some s.config.grace, graceRemaining := some s.config.grace }
              ports := bankSet s.ports t.holder
                { s.port t.holder with state := .yielding, lastYield := .asked reason } }) ∧
          (¬preempted → ¬limit → ¬idle → s.testYield = s))

/-- Withdrawal of the drawing reservation, and the refill of an ELASTIC one. -/
def Obligations.WithdrawalAndRefillOfDrawingReservation : Prop :=
  ∀ (s : State) (h : Handle),
    (∀ cls, s.tenure.bind (·.drawing) ≠ some h → s.withdrawDrawing h cls = s ∧ s.refillStanding h cls = s) ∧
    ∀ t, s.tenure = some t → t.drawing = some h →
      s.withdrawDrawing h .elastic = { s with tenure := some { t with drawing := none, standing := .three } } ∧
      ((s.port t.holder).state = .granted ∧ t.yield = none → s.withdrawDrawing h .fixed =
        { s with
          tenure := some
            { t with
              drawing := none, standing := .three, yield := some .withdrawn
              tenureG := some s.config.grace, graceRemaining := some s.config.grace }
          ports := bankSet s.ports t.holder { s.port t.holder with state := .yielding, lastYield := .asked .withdrawn } }) ∧
      ((s.port t.holder).state ≠ .granted ∨ t.yield ≠ none → s.withdrawDrawing h .fixed =
        { s with tenure := some { t with drawing := none, standing := .three } }) ∧
      s.refillStanding h .fixed = s ∧
      s.refillStanding h .elastic =
        { s with tenure := some { t with standing := if t.standing = .three then .two else t.standing } }

/-- GRANT_DECISION: the winner is the first port of the first group with an eligible entry, searched from the port after
the group's pointer; the grant removes its entry, sets that pointer, makes it GRANTED and opens the tenure. No grant is made while RST#
is low, while a port holds the bus, or with no eligible entry. -/
def Obligations.GrantDecisionGrantsTheWinner : Prop :=
  ∀ s : State,
    (s.rstLow = true ∨ (∃ q, (s.port q).state.holdsBus = true) ∨ (∀ q, s.groupOf q = none) →
      exec .grantDecision s = .next s) ∧
    ∀ (g : Group) (p : Port), s.rstLow = false → (∀ q, (s.port q).state.holdsBus = false) →
    s.groupOf p = some g → (∀ q g', s.groupOf q = some g' → g ≤ g') →
    (∀ q, s.groupOf q = some g → p - bankGet s.pointers g - 1 ≤ q - bankGet s.pointers g - 1) →
    exec .grantDecision s = .next
      { s with
        waiting := bankSet s.waiting p none
        pointers := bankSet s.pointers g p
        ports := bankSet s.ports p { s.port p with state := .granted }
        tenure := some
          { holder := p
            drawing := ((bankGet s.waiting p).bind (·.handle)).filter fun h =>
              (s.fresh h).any fun r => decide (r.state = .active)
            standing := if g = 0 then .one else if g = 5 then .three else .two
            usage := 0, idleTicks := 0, idleLimit := s.config.idle, spareLimit := s.config.spare, yield := none
            tenureG := none, graceRemaining := none, drainRemaining := none } }

/-! ## Time -/

/-- TICK: the visits that are overdue, the Tenure Monitor, then the tick count or the boundary in its place. That a tick
takes the events of the limits it reaches, in this order, and before the sweep's last visits the takes that come before them,
is the model's choice (log entries 3, 4 and 18). -/
def Obligations.TickCountsTheFrame : Prop :=
  ∀ s : State, (s.rstLow = true → exec .tick s = .next s) ∧
    (s.rstLow = false → ∃ t, exec .tick s = .next t ∧
      (s.tickCount + 1 < s.config.frameTicks →
        t = { s.takeOverdue.tenureTick with tickCount := s.tickCount + 1 } ∧
          t.frameNumber = s.frameNumber ∧ t.config = s.config ∧ t.pendingConfig = s.takeOverdue.pendingConfig ∧
          t.late = s.late ∧ (s.tickCount + 1 < 16 → t.sweep = s.sweep) ∧ (16 ≤ s.tickCount + 1 → t.sweep = none)) ∧
      (s.config.frameTicks ≤ s.tickCount + 1 →
        t = { s.takeOverdue.tenureTick with
          tickCount := 0, frameNumber := s.frameNumber + 1, config := s.takeOverdue.pendingConfig.getD s.config
          pendingConfig := none, sweep := some 0, late := Vector.replicate 8 false }) ∧
      (s.tickCount + 1 < 16 ∨ s.sweep = none ∨ s.cmdQueue = [] →
        t.cmdQueue = s.cmdQueue ∧ t.pointers = s.pointers ∧ s.takeOverdue.pendingConfig = s.pendingConfig) ∧
      t = { s with
        ports := t.ports, table := t.table, bindings := t.bindings, committed := t.committed
        preemptTotal := t.preemptTotal, pendingConfig := t.pendingConfig, config := t.config, tickCount := t.tickCount
        frameNumber := t.frameNumber, sweep := t.sweep, waiting := t.waiting, pointers := t.pointers, tenure := t.tenure
        pendingOrder := t.pendingOrder, slots := t.slots, cmdQueue := t.cmdQueue, walk := t.walk, late := t.late
        notices := t.notices })

/-- A tick at the Tenure Monitor: the idle count while the list is empty, the grace of a YIELDING holder, the drain of a
DRAINING one. A count that the tick takes to 0 is the expiry, whose event GRACE_EXPIRY or DRAIN_EXPIRY states. -/
def Obligations.TickCountsIdleGraceAndDrain : Prop :=
  ∀ s : State, s.rstLow = false →
    (s.tenure = none → s.tenureTick = s) ∧
    ∀ t, s.tenure = some t →
      ((s.port t.holder).state = .granted → s.cycles = [] → s.tenureTick =
        State.testYield { s with tenure := some { t with idleTicks := min 255 (t.idleTicks + 1) } }) ∧
      ((s.port t.holder).state = .granted → s.cycles ≠ [] → s.tenureTick = s) ∧
      (∀ g, (s.port t.holder).state = .yielding → t.graceRemaining = some (g + 2) → s.tenureTick =
        { s with
          tenure := some
            { t with
              graceRemaining := some (g + 1)
              idleTicks := if s.cycles = [] then min 255 (t.idleTicks + 1) else t.idleTicks } }) ∧
      (∀ g, (s.port t.holder).state = .draining → t.drainRemaining = some (g + 2) → s.tenureTick =
        { s with
          tenure := some
            { t with
              drainRemaining := some (g + 1)
              idleTicks := if s.cycles = [] then min 255 (t.idleTicks + 1) else t.idleTicks } }) ∧
      ((s.port t.holder).state = .yielding → t.graceRemaining = some 1 → bankGet s.req t.holder = true →
        exec .graceExpiry s = .next s.tenureTick) ∧
      ((s.port t.holder).state = .draining → t.drainRemaining = some 1 → s.cycles ≠ [] →
        exec .drainExpiry s = .next s.tenureTick)

/-- BOUNDARY where the next tick reaches FT: count 0, frame number advanced, a pending configuration in force, the sweep
begun, after the visits that may wait no longer: a walk's until it has taken as many as its ticks, then the rest of a sweep
where the tick count would become 16. A visit whose record a RENEW triggered before the boundary still names follows that
RENEW's take, and with it the takes and walk visits that come first at the Command Unit. Where no boundary is due nothing
changes (log entries 2, 3, 4 and 18). -/
def Obligations.BoundaryBeginsTheNextFrame : Prop :=
  ∀ s : State,
    (s.rstLow = false → s.config.frameTicks ≤ s.tickCount + 1 → ∃ t, exec .boundary s = .next t ∧
      t = { s.takeOverdue with
        tickCount := 0, frameNumber := s.frameNumber + 1, config := s.takeOverdue.pendingConfig.getD s.config
        pendingConfig := none, sweep := some 0, late := Vector.replicate 8 false }) ∧
    (s.rstLow = true ∨ s.tickCount + 1 < s.config.frameTicks → exec .boundary s = .next s) ∧
    (∀ v : State,
      (s.walk = none ∧ v = s ∨
        ∃ w, s.walk = some w ∧ w.ticks + 1 ≤ w.next.val ∧ v = { s with walk := some { w with ticks := w.ticks + 1 } }) →
      (s.tickCount + 1 < 16 → s.takeOverdue = v) ∧ (16 ≤ s.tickCount + 1 → s.takeOverdue = v.finishSweep)) ∧
    (s.rstLow = false → ∀ w, s.walk = some w → w.next.val < w.ticks + 1 → ∃ u, s.takeOverdue = u.takeOverdue ∧
      (∀ l st f, w.kind = .list l st f → exec .listVisit s = .next u) ∧
      (∀ n d, w.kind = .resetTable n d → exec .resetTableVisit s = .next u)) ∧
    (s.sweep = none → s.finishSweep = s) ∧
    ∀ k, s.rstLow = false → s.sweep = some k →
      (s.renewWaits k = false → ∃ u, s.finishSweep = u.finishSweep ∧ exec .sweepVisit s = .next u) ∧
      (s.renewWaits k = true → ∀ w, s.walk = some w → ∃ u, s.finishSweep = u.finishSweep ∧
        (∀ l st f, w.kind = .list l st f → exec .listVisit s = .next u) ∧
        (∀ n d, w.kind = .resetTable n d → exec .resetTableVisit s = .next u)) ∧
      (s.renewWaits k = true → ∀ p rest c b, s.takeDue p rest c b → ∃ u, s.finishSweep = u.finishSweep ∧
        (∀ x ∈ commandTakes, x.2 = b → exec x.1 s = .next u) ∧
        (b ∉ commandTakes.map (·.2) → exec .takeBadCommand s = .next u))

/-- IDLE_LIMIT where the tick takes the idle count to the limit with a competitor waiting: with no other condition met the
yield is IDLE. Where it is not due nothing changes (log entry 2). -/
def Obligations.IdleLimitAsksToYield : Prop :=
  ∀ (s : State) (t : Tenure), s.tenure = some t →
    (s.rstLow = false → (s.port t.holder).state = .granted → t.yield = none → s.cycles = [] →
      (∃ q, s.competitorTier q ≠ none) → t.idleLimit ≤ min 255 (t.idleTicks + 1) →
      exec .idleLimit s = .next
        (State.testYield { s with tenure := some { t with idleTicks := min 255 (t.idleTicks + 1) } }) ∧
      (s.preempts t.standing = false → s.limitReached t = false → exec .idleLimit s = .next
        { s with
          tenure := some
            { t with
              idleTicks := min 255 (t.idleTicks + 1), yield := some .idle, tenureG := some s.config.grace
              graceRemaining := some s.config.grace }
          ports := bankSet s.ports t.holder { s.port t.holder with state := .yielding, lastYield := .asked .idle } })) ∧
    (s.rstLow = true ∨ (s.port t.holder).state ≠ .granted ∨ t.yield ≠ none ∨ s.cycles ≠ [] ∨
      (∀ q, s.competitorTier q = none) ∨ min 255 (t.idleTicks + 1) < t.idleLimit → exec .idleLimit s = .next s)

/-- GRACE_EXPIRY where grace remaining reaches 0 with REQn high: a holder that is not the supervisor is fenced, the
supervisor's tenure is withdrawn by force. Where it is not due nothing changes (log entry 2). -/
def Obligations.GraceExpiryFencesOrWithdrawsByForce : Prop :=
  ∀ (s : State) (t : Tenure), s.tenure = some t →
    (s.rstLow = false → (s.port t.holder).state = .yielding → t.graceRemaining = some 1 → bankGet s.req t.holder = true →
      (t.holder ≠ s.supervisor → exec .graceExpiry s = .next
        (State.place
          (State.place
            { s with
              tenure := none
              pendingOrder := s.pendingOrder.map fun _ => .stray
              ports := bankSet s.ports t.holder
                { s.port t.holder with state := .fenced, fenceCount := min 15 ((s.port t.holder).fenceCount + 1) }
              table := bankMap (fun _ x =>
                { x with live := x.live.map fun r =>
                    if r.owner = t.holder ∧ r.state ≠ .lapsed then
                      { r with
                        state := .suspended, causes := { r.causes with fence := true }
                        credit := if r.state = .active then 0 else r.credit }
                    else r }) s.table }
            t.holder .fenced .none) s.supervisor .portFenced (.port t.holder))) ∧
      (t.holder = s.supervisor → exec .graceExpiry s = .next
        (State.place
          { s with
            tenure := none
            pendingOrder := s.pendingOrder.map fun _ => .stray
            ports := bankSet s.ports t.holder
              { s.port t.holder with
                state := .idle, fenceCount := min 15 ((s.port t.holder).fenceCount + 1), lastYield := .forced } }
          t.holder .forced .none))) ∧
    (s.rstLow = true ∨ (s.port t.holder).state ≠ .yielding ∨ t.graceRemaining = none ∨
      (∃ g, t.graceRemaining = some (g + 2)) ∨ bankGet s.req t.holder = false → exec .graceExpiry s = .next s)

/-- DRAIN_EXPIRY where drain remaining reaches 0 with cycles outstanding: they are cut uncharged, the holder is IDLE and
CUT is recorded. Where it is not due nothing changes (log entry 2). -/
def Obligations.DrainExpiryCutsOutstandingCycles : Prop :=
  ∀ (s : State) (t : Tenure), s.tenure = some t →
    (s.rstLow = false → (s.port t.holder).state = .draining → t.drainRemaining = some 1 → s.cycles ≠ [] →
      exec .drainExpiry s = .next
        { s with
          tenure := none
          pendingOrder := s.pendingOrder.map fun _ => .stray
          ports := bankSet s.ports t.holder { s.port t.holder with state := .idle, lastYield := .cut } }) ∧
    (s.rstLow = true ∨ (s.port t.holder).state ≠ .draining ∨ t.drainRemaining = none ∨
      (∃ g, t.drainRemaining = some (g + 2)) ∨ s.cycles = [] → exec .drainExpiry s = .next s)

/-- SWEEP_VISIT to a FREE, a SUSPENDED or a LAPSED record: each visit moves the sweep to the next slot, and the visit to S31
ends it. The visit to a LAPSED record is not due while a RENEW that its owner or the supervisor triggered before the boundary
waits for it. That a visit that is not due, one with no sweep running among them, changes nothing is the model's choice (log
entries 2 and 18). -/
def Obligations.SweepVisitPassesFreezesOrRetires : Prop :=
  ∀ s : State,
    (s.rstLow = true ∨ s.sweep = none → exec .sweepVisit s = .next s) ∧
    (∀ k, s.renewWaits k = true ↔ ∃ r p c, s.liveAt k = some r ∧ r.state = .lapsed ∧ p ∈ s.cmdQueue ∧
      bankGet s.late p = false ∧ (r.owner = p ∨ p = s.supervisor) ∧ (s.slot p).captured = some c ∧ byteAt c 0 = 0x03 ∧
      handleField c = { slot := k, generation := (s.record k).generation }) ∧
    (∀ k, s.sweep = some k → s.renewWaits k = true → exec .sweepVisit s = .next s) ∧
    ∀ k, s.rstLow = false → s.sweep = some k →
      ∀ next : Option Slot, (next = none ↔ k.val = 31) → (∀ j, next = some j → j.val = k.val + 1) →
      (s.liveAt k = none → exec .sweepVisit s = .next { s with sweep := next }) ∧
      (∀ r, s.liveAt k = some r → r.state = .suspended → exec .sweepVisit s = .next
        { State.testYield
          { s with
            table := bankSet s.table k
              ((s.record k).holding
                { r with share := r.pendingShare.getD r.share, pendingShare := none, credit := 0 })
            committed := s.committed + r.pendingShare.getD r.share - r.contribution
            preemptTotal :=
              s.preemptTotal + (if r.preempt then r.pendingShare.getD r.share else 0)
                - (if r.preempt then r.contribution else 0) } with
          sweep := next }) ∧
      (∀ r, s.liveAt k = some r → r.state = .lapsed → s.renewWaits k = false → exec .sweepVisit s = .next
        { State.testYield
            (State.place (s.retireRecord k) r.owner .retired
              (.handle { slot := k, generation := (s.record k).generation })) with
          sweep := next })

/-- SWEEP_VISIT to an ACTIVE record: the shortfall test on the credit left, the pending share, the refill, and the lease,
which at 1 places LEASE_LOW and at 0 lapses the record with credit 0; then the other blocks are told. -/
def Obligations.SweepVisitRefillsAndCountsLease : Prop :=
  ∀ (s : State) (k : Slot) (r : Reservation), s.rstLow = false → s.sweep = some k → s.liveAt k = some r →
    r.state = .active →
    ∀ (next : Option Slot) (short : Bool) (share remaining : Nat) (notice : Option NoticeKind) (u : State),
      (next = none ↔ k.val = 31) → (∀ j, next = some j → j.val = k.val + 1) →
      (short = true ↔ 0 < r.credit ∧ ∃ e, bankGet s.waiting r.owner = some e ∧
        e.handle = some { slot := k, generation := (s.record k).generation } ∧ s.entryRank e ≠ .held) →
      share = r.pendingShare.getD r.share →
      remaining = (if r.leaseLength = 0 then r.leaseRemaining else r.leaseRemaining - 1) →
      notice = (if r.leaseLength = 0 then none else if remaining = 0 then some .lapsed
        else if remaining = 1 then some .leaseLow else none) →
      u =
        { s with
          table := bankSet s.table k
            ((s.record k).holding
              { r with
                share := share, pendingShare := none, leaseRemaining := remaining
                shortfall := if short then min 255 (r.shortfall + 1) else r.shortfall
                state := if notice = some .lapsed then .lapsed else .active
                credit := if notice = some .lapsed then 0 else share })
          committed := s.committed + share - r.contribution
          preemptTotal := s.preemptTotal + (if r.preempt then share else 0) - (if r.preempt then r.contribution else 0)
          notices :=
            ((s.placeIf r.owner notice (.handle { slot := k, generation := (s.record k).generation })).placeIf r.owner
              (if short then some .shortfall else none)
              (.handle { slot := k, generation := (s.record k).generation })).notices } →
      exec .sweepVisit s = .next
        { State.testYield
            (if notice = some .lapsed then
              u.withdrawDrawing { slot := k, generation := (s.record k).generation } r.cls
            else u.refillStanding { slot := k, generation := (s.record k).generation } r.cls) with
          sweep := next }

/-! ## Retirement, notices and completion -/

/-- Retirement: the record is FREE with its generation advanced modulo 2048, the totals fall by the contribution, the
owner's codes and the waiting entries that name the handle drop it, and a tenure drawing on it has it withdrawn. The
handle is then stale and the owner's count is one less. -/
def Obligations.RetirementFreesTheRecord : Prop :=
  ∀ (s : State) (k : Slot),
    (s.liveAt k = none → s.retireRecord k = s) ∧
    ∀ (r : Reservation) (h : Handle), s.liveAt k = some r → h = { slot := k, generation := (s.record k).generation } →
      s.retireRecord k = State.withdrawDrawing
        { s with
          table := bankSet s.table k { generation := (s.record k).generation + 1, live := none }
          committed := s.committed - r.contribution
          preemptTotal := s.preemptTotal - (if r.preempt then r.contribution else 0)
          bindings := bankSet s.bindings r.owner
            (bankMap (fun _ b => if b = some h then none else b) (bankGet s.bindings r.owner))
          waiting := bankMap (fun _ e => e.map fun w => if w.handle = some h then { handle := none } else w) s.waiting }
        h r.cls ∧
      (s.retireRecord k).fresh h = none ∧ (s.retireRecord k).owned r.owner + 1 = s.owned r.owner ∧
      (s.retire k) = (s.retireRecord k).testYield

/-- A placement: discarded for a DETACHED port, merged into an entry of its kind and subject with the count stopping at 15,
stored last with count 1, or the overrun indication. It raises NTFn where the enable is on, and leaves it as it is where the
set was not empty or the enable is off. -/
def Obligations.NoticePlacementMergesStoresOrOverruns : Prop :=
  ∀ (s : State) (p : Port) (kind : NoticeKind) (x : Subject),
    ((s.port p).state = .detached → s.place p kind x = s) ∧
    ((s.port p).state ≠ .detached →
      ∃ n : NoticeSet, s.place p kind x = { s with notices := bankSet s.notices p n } ∧
        (∀ pre e post, (bankGet s.notices p).entries = pre ++ e :: post → e.kind = kind → e.subject = x →
          (∀ y ∈ pre ++ post, ¬(y.kind = kind ∧ y.subject = x)) →
          n = { bankGet s.notices p with entries := pre ++ { e with count := min 15 (e.count + 1) } :: post }) ∧
        ((∀ y ∈ (bankGet s.notices p).entries, ¬(y.kind = kind ∧ y.subject = x)) →
          (bankGet s.notices p).entries.length < 16 →
          n = { bankGet s.notices p with
            entries := (bankGet s.notices p).entries ++ [{ kind := kind, subject := x, count := 1 }] }) ∧
        ((∀ y ∈ (bankGet s.notices p).entries, ¬(y.kind = kind ∧ y.subject = x)) →
          16 ≤ (bankGet s.notices p).entries.length → n = { bankGet s.notices p with overrun := true }) ∧
        (s.rstLow = false → (s.port p).ntfEnable = true → (s.place p kind x).ntfLine p = true) ∧
        ((bankGet s.notices p).nonempty = true ∨ (s.port p).ntfEnable = false →
          (s.place p kind x).ntfLine p = s.ntfLine p))

/-- A command completed in one event: the reply whole, the slot DONE, CMD_DONE placed; a refusal has count 0 and data 0;
reply data is the bytes given, the rest 0x00. -/
def Obligations.CompletionWritesReplyAndPlacesCmdDone : Prop :=
  ∀ (s : State) (p : Port) (x : ReplyStatus) (n : Nat) (bs : List Byte),
    s.complete p x n bs = State.place
      { s with
        slots := bankSet s.slots p
          { s.slot p with state := .done, status := x, count := n, data := replyData bs } } p .cmdDone .none ∧
    s.refuse p x = State.place
      { s with
        slots := bankSet s.slots p
          { s.slot p with state := .done, status := x, count := 0, data := Vector.replicate 30 0 } } p .cmdDone .none ∧
    ∀ i : Fin 30, bankGet (replyData bs) i = bs.getD i.val 0

/-- A take or a walk visit that is not due changes nothing, and neither does a named ready where the oldest cycle is another
access; on a stray or an empty order it is the plain ready (the model's choice, log entries 1 and 2). -/
def Obligations.UndueEventsChangeNothing : Prop :=
  ∀ s : State,
    (∀ x ∈ commandTakes, (∀ p rest c, ¬s.takeDue p rest c x.2) → exec x.1 s = .next s) ∧
    ((∀ p rest c b, s.takeDue p rest c b → b ∈ commandTakes.map (·.2)) → exec .takeBadCommand s = .next s) ∧
    ((∀ w l st f, s.walk = some w → w.kind ≠ .list l st f) → exec .listVisit s = .next s) ∧
    ((∀ w n d, s.walk = some w → w.kind ≠ .resetTable n d) → exec .resetTableVisit s = .next s) ∧
    (∀ c rest d, s.pendingOrder = .cycle c :: rest →
      (d = 0 ∨ (∀ p, c.access ≠ some { offset := 0x00, write := true, port := p }) → exec (.trigger d) s = .next s) ∧
      ((∀ o p, c.access = some { offset := o, write := true, port := p } → o = 0x35 ∨ (o = 0x00 ∧ d ≠ 0)) →
        exec (.windowWrite d) s = .next s) ∧
      ((∀ p, c.access ≠ some { offset := 0x35, write := true, port := p }) → exec (.portControlWrite d) s = .next s) ∧
      ((∀ p, c.access ≠ some { offset := 0x38, write := false, port := p }) → exec .noticeTake s = .next s) ∧
      ((∀ p, c.access ≠ some { offset := 0x3C, write := false, port := p }) → exec .timeSnapshot s = .next s)) ∧
    ((∀ c rest, s.pendingOrder ≠ .cycle c :: rest) → ∀ d,
      ∀ i ∈ [Instr.trigger d, .windowWrite d, .portControlWrite d, .noticeTake, .timeSnapshot],
        exec i s = exec (.ready d) s)

/-! ## The takes -/

/-- A code outside the table is BAD_COMMAND, and a supervisor command from another port is NOT_SUPERVISOR: a refusal
changes nothing but the issuer's slot, the queue and the notices. -/
def Obligations.UndefinedCodesAndForeignSupervisorCommandsAreRefused : Prop :=
  ∀ (s : State) (p : Port) (rest : List Port) (c : Vector Byte 16) (b : Byte), s.takeDue p rest c b →
    (b ∉ commandTakes.map (·.2) →
      exec .takeBadCommand s = .next (State.complete { s with cmdQueue := rest } p .badCommand 0 [])) ∧
    (p ≠ s.supervisor → ∀ x ∈ supervisorTakes, x.2 = b →
      exec x.1 s = .next (State.complete { s with cmdQueue := rest } p .notSupervisor 0 []))

/-- The terms of an opening are accepted exactly within the ranges of R159, with a lease length of 0 for OPEN_FOR alone. -/
def Obligations.OpeningTermsAcceptedInRange : Prop :=
  ∀ (permanentOk : Bool) (c : Vector Byte 16) (x : OpenTerms),
    openTerms permanentOk c = some x ↔
      field8 c 0x01 ≤ 1 ∧ field8 c 0x02 ≤ 1 ∧ field8 c 0x07 ≤ 3 ∧
      x =
        { cls := if field8 c 0x01 = 0 then .fixed else .elastic
          preempt := decide (field8 c 0x02 = 1)
          share := field16 c 0x03, maxTenure := field16 c 0x05, priority := Fin.ofNat 4 (field8 c 0x07)
          leaseLength := field8 c 0x08, tag := BitVec.ofNat 16 (field16 c 0x09) } ∧
      1 ≤ x.share ∧ 1 ≤ x.maxTenure ∧ x.maxTenure ≤ 1023 ∧ (x.preempt = true → x.cls = .fixed ∧ x.maxTenure ≤ 32) ∧
      (permanentOk = true ∨ 1 ≤ x.leaseLength)

/-- OPEN: BAD_FIELD, TABLE_FULL, PORT_LIMIT, CAPACITY and PREEMPT_LIMIT in that order, else the record in the
lowest-numbered FREE slot, the totals raised, and the reply with the handle and the state. -/
def Obligations.OpenWritesTheLowestFreeSlot : Prop :=
  ∀ (s : State) (p : Port) (rest : List Port) (c : Vector Byte 16), s.takeDue p rest c 0x01 →
    (openTerms false c = none → exec .takeOpen s = .next (State.refuse { s with cmdQueue := rest } p .badField)) ∧
    ∀ x, openTerms false c = some x →
      ((∀ k, s.liveAt k ≠ none) → exec .takeOpen s = .next (State.refuse { s with cmdQueue := rest } p .tableFull)) ∧
      ∀ k, s.isLowestFree k →
        (8 ≤ s.owned p → exec .takeOpen s = .next (State.refuse { s with cmdQueue := rest } p .portLimit)) ∧
        (s.owned p < 8 → s.commitLimit < s.committed + x.share →
          exec .takeOpen s = .next (State.refuse { s with cmdQueue := rest } p .capacity)) ∧
        (s.owned p < 8 → s.committed + x.share ≤ s.commitLimit → x.preempt = true →
          s.preemptLimit < s.preemptTotal + x.share →
          exec .takeOpen s = .next (State.refuse { s with cmdQueue := rest } p .preemptLimit)) ∧
        (s.owned p < 8 → s.committed + x.share ≤ s.commitLimit →
          (x.preempt = true → s.preemptTotal + x.share ≤ s.preemptLimit) →
          exec .takeOpen s = .next
            (State.complete
              { s with
                cmdQueue := rest
                table := bankSet s.table k
                  ((s.record k).holding
                    { state := if (s.port p).state = .fenced then .suspended else .active
                      owner := p, cls := x.cls, preempt := x.preempt, share := x.share, pendingShare := none
                      maxTenure := x.maxTenure, priority := x.priority, leaseLength := x.leaseLength
                      leaseRemaining := x.leaseLength, credit := 0
                      causes := { command := false, fence := decide ((s.port p).state = .fenced) }
                      shortfall := 0, tag := x.tag })
                committed := s.committed + x.share
                preemptTotal := s.preemptTotal + (if x.preempt then x.share else 0) }
              p .done 1
              (handleBytes { slot := k, generation := (s.record k).generation } ++
                [if (s.port p).state = .fenced then 0x02 else 0x01])))

/-- The limits of a ruling: C - M and floor(C/8) of the configuration in force, the smaller with a pending one. -/
def Obligations.LimitsAreTheStricterOfBothConfigurations : Prop :=
  ∀ s : State,
    (s.pendingConfig = none →
      s.commitLimit = s.config.capacity - s.config.reserve ∧ s.preemptLimit = s.config.capacity / 8) ∧
    ∀ f, s.pendingConfig = some f →
      s.commitLimit = min (s.config.capacity - s.config.reserve) (f.capacity - f.reserve) ∧
        s.preemptLimit = min (s.config.capacity / 8) (f.capacity / 8)

/-- OPEN_FOR from the supervisor: BAD_FIELD, WRONG_STATE for a DETACHED port, then as OPEN for the named port, with OPENED
placed for it. -/
def Obligations.OpenForWritesTheLowestFreeSlot : Prop :=
  ∀ (s : State) (rest : List Port) (c : Vector Byte 16), s.takeDue s.supervisor rest c 0x10 →
    (8 ≤ field8 c 0x0B ∨ openTerms true c = none →
      exec .takeOpenFor s = .next (State.refuse { s with cmdQueue := rest } s.supervisor .badField)) ∧
    ∀ (q : Port) (x : OpenTerms), field8 c 0x0B = q.val → openTerms true c = some x →
      ((s.port q).state = .detached →
        exec .takeOpenFor s = .next (State.refuse { s with cmdQueue := rest } s.supervisor .wrongState)) ∧
      ((s.port q).state ≠ .detached → (∀ k, s.liveAt k ≠ none) →
        exec .takeOpenFor s = .next (State.refuse { s with cmdQueue := rest } s.supervisor .tableFull)) ∧
      ∀ k, (s.port q).state ≠ .detached → s.isLowestFree k →
        (8 ≤ s.owned q → exec .takeOpenFor s = .next (State.refuse { s with cmdQueue := rest } s.supervisor .portLimit)) ∧
        (s.owned q < 8 → s.commitLimit < s.committed + x.share →
          exec .takeOpenFor s = .next (State.refuse { s with cmdQueue := rest } s.supervisor .capacity)) ∧
        (s.owned q < 8 → s.committed + x.share ≤ s.commitLimit → x.preempt = true →
          s.preemptLimit < s.preemptTotal + x.share →
          exec .takeOpenFor s = .next (State.refuse { s with cmdQueue := rest } s.supervisor .preemptLimit)) ∧
        (s.owned q < 8 → s.committed + x.share ≤ s.commitLimit →
          (x.preempt = true → s.preemptTotal + x.share ≤ s.preemptLimit) →
          exec .takeOpenFor s = .next
            (State.complete
              (State.place
                { s with
                  cmdQueue := rest
                  table := bankSet s.table k
                    ((s.record k).holding
                      { state := if (s.port q).state = .fenced then .suspended else .active
                        owner := q, cls := x.cls, preempt := x.preempt, share := x.share, pendingShare := none
                        maxTenure := x.maxTenure, priority := x.priority, leaseLength := x.leaseLength
                        leaseRemaining := x.leaseLength, credit := 0
                        causes := { command := false, fence := decide ((s.port q).state = .fenced) }
                        shortfall := 0, tag := x.tag })
                  committed := s.committed + x.share
                  preemptTotal := s.preemptTotal + (if x.preempt then x.share else 0) }
                q .opened (.handle { slot := k, generation := (s.record k).generation }))
              s.supervisor .done 1
              (handleBytes { slot := k, generation := (s.record k).generation } ++
                [if (s.port q).state = .fenced then 0x02 else 0x01])))

/-- MODIFY: the checks of R162 and R163 in order, the ruling on a risen contribution, else every named field changed
together, the totals with the contribution, and the Tenure Monitor's test where the change reaches it. -/
def Obligations.ModifyChangesEveryNamedField : Prop :=
  ∀ (s : State) (p : Port) (rest : List Port) (c : Vector Byte 16), s.takeDue p rest c 0x02 →
    ∀ (m : Byte) (share maxTenure priority lease : Nat) (h : Handle) (bad : Prop),
      m = byteAt c 0x0B → share = field16 c 0x03 → maxTenure = field16 c 0x05 → priority = field8 c 0x07 →
      lease = field8 c 0x08 → h = handleField c →
      (bad ↔ m = 0 ∨ 32 ≤ m.toNat ∨ (m.getLsbD 0 = true ∧ share = 0) ∨
        (m.getLsbD 1 = true ∧ (maxTenure = 0 ∨ 1023 < maxTenure)) ∨ (m.getLsbD 2 = true ∧ 3 < priority) ∨
        (m.getLsbD 3 = true ∧ lease = 0)) →
      (bad → exec .takeModify s = .next (State.refuse { s with cmdQueue := rest } p .badField)) ∧
      (¬bad → s.fresh h = none → exec .takeModify s = .next (State.refuse { s with cmdQueue := rest } p .stale)) ∧
      ∀ r, ¬bad → s.fresh h = some r →
        (r.preempt = true ∧ m.getLsbD 1 = true ∧ 32 < maxTenure →
          exec .takeModify s = .next (State.refuse { s with cmdQueue := rest } p .badField)) ∧
        (¬(r.preempt = true ∧ m.getLsbD 1 = true ∧ 32 < maxTenure) → r.owner ≠ p → p ≠ s.supervisor →
          exec .takeModify s = .next (State.refuse { s with cmdQueue := rest } p .notOwner)) ∧
        (¬(r.preempt = true ∧ m.getLsbD 1 = true ∧ 32 < maxTenure) → r.owner = p ∨ p = s.supervisor →
          r.state = .lapsed ∨ (m.getLsbD 3 = true ∧ r.leaseLength = 0) →
          exec .takeModify s = .next (State.refuse { s with cmdQueue := rest } p .wrongState)) ∧
        (¬(r.preempt = true ∧ m.getLsbD 1 = true ∧ 32 < maxTenure) → r.owner = p ∨ p = s.supervisor →
          r.state ≠ .lapsed → ¬(m.getLsbD 3 = true ∧ r.leaseLength = 0) →
          ∀ (pendingShare : Option Nat) (contribution : Nat) (u : State),
            pendingShare = (if m.getLsbD 0 then (if share = r.share then none else some share) else r.pendingShare) →
            contribution = max r.share (pendingShare.getD 0) →
            u =
              { s with
                cmdQueue := rest
                table := bankSet s.table h.slot
                  ((s.record h.slot).holding
                    { r with
                      pendingShare := pendingShare
                      maxTenure := if m.getLsbD 1 then maxTenure else r.maxTenure
                      priority := if m.getLsbD 2 then Fin.ofNat 4 priority else r.priority
                      leaseLength := if m.getLsbD 3 then lease else r.leaseLength
                      tag := if m.getLsbD 4 then BitVec.ofNat 16 (field16 c 0x09) else r.tag })
                committed := s.committed + contribution - r.contribution
                preemptTotal :=
                  s.preemptTotal + (if r.preempt then contribution else 0) - (if r.preempt then r.contribution else 0) } →
            (r.contribution < contribution → s.commitLimit < s.committed + (contribution - r.contribution) →
              exec .takeModify s = .next (State.refuse { s with cmdQueue := rest } p .capacity)) ∧
            (r.contribution < contribution → s.committed + (contribution - r.contribution) ≤ s.commitLimit →
              r.preempt = true → s.preemptLimit < s.preemptTotal + (contribution - r.contribution) →
              exec .takeModify s = .next (State.refuse { s with cmdQueue := rest } p .preemptLimit)) ∧
            ((r.contribution < contribution → s.committed + (contribution - r.contribution) ≤ s.commitLimit ∧
                (r.preempt = true → s.preemptTotal + (contribution - r.contribution) ≤ s.preemptLimit)) →
              ((m.getLsbD 1 = true ∧ s.tenure.bind (·.drawing) = some h) ∨
                  (m.getLsbD 2 = true ∧ (bankGet s.waiting r.owner).bind (·.handle) = some h) →
                exec .takeModify s = .next (State.complete u.testYield p .done 0 [])) ∧
              (¬((m.getLsbD 1 = true ∧ s.tenure.bind (·.drawing) = some h) ∨
                  (m.getLsbD 2 = true ∧ (bankGet s.waiting r.owner).bind (·.handle) = some h)) →
                exec .takeModify s = .next (State.complete u p .done 0 []))))

/-- RENEW, by the state of the record, its lease length and its owner's fence; STALE and NOT_OWNER before it. -/
def Obligations.RenewReloadsTheLease : Prop :=
  ∀ (s : State) (p : Port) (rest : List Port) (c : Vector Byte 16), s.takeDue p rest c 0x03 →
    (s.fresh (handleField c) = none →
      exec .takeRenew s = .next (State.refuse { s with cmdQueue := rest } p .stale)) ∧
    ∀ r, s.fresh (handleField c) = some r →
      (r.owner ≠ p → p ≠ s.supervisor →
        exec .takeRenew s = .next (State.refuse { s with cmdQueue := rest } p .notOwner)) ∧
      (r.owner = p ∨ p = s.supervisor → ∀ r' : Reservation,
        (r.leaseLength = 0 → r' = r) →
        (r.leaseLength ≠ 0 → r.state ≠ .lapsed → r' = { r with leaseRemaining := r.leaseLength }) →
        (r.leaseLength ≠ 0 → r.state = .lapsed → (s.port r.owner).state ≠ .fenced →
          r' = { r with state := .active, leaseRemaining := r.leaseLength }) →
        (r.leaseLength ≠ 0 → r.state = .lapsed → (s.port r.owner).state = .fenced →
          r' = { r with
            state := .suspended, causes := { r.causes with fence := true }, leaseRemaining := r.leaseLength }) →
        exec .takeRenew s = .next
          (State.complete
            { s with
              cmdQueue := rest
              table := bankSet s.table (handleField c).slot ((s.record (handleField c).slot).holding r') }
            p .done 1 [liveStateCode r'.state, BitVec.ofNat 8 r'.leaseRemaining]))

/-- CLOSE by the owner and REVOKE by the supervisor retire the record in any live state; REVOKE places REVOKED. The handle a
command names is read from bits 4 to 0 and 15 to 5 of the bytes at 0x0C and 0x0D. -/
def Obligations.CloseAndRevokeRetireTheRecord : Prop :=
  (∀ c : Vector Byte 16, (handleField c).slot.val = (byteAt c 0x0C).toNat % 32 ∧
    (handleField c).generation.val = (byteAt c 0x0C).toNat / 32 + 8 * (byteAt c 0x0D).toNat) ∧
  ∀ (s : State) (p : Port) (rest : List Port) (c : Vector Byte 16),
    (s.takeDue p rest c 0x04 →
      (s.fresh (handleField c) = none →
        exec .takeClose s = .next (State.refuse { s with cmdQueue := rest } p .stale)) ∧
      ∀ r, s.fresh (handleField c) = some r →
        (r.owner ≠ p → exec .takeClose s = .next (State.refuse { s with cmdQueue := rest } p .notOwner)) ∧
        (r.owner = p → exec .takeClose s = .next
          (State.complete (State.retire { s with cmdQueue := rest } (handleField c).slot) p .done 0 []))) ∧
    (s.takeDue s.supervisor rest c 0x11 →
      (s.fresh (handleField c) = none →
        exec .takeRevoke s = .next (State.refuse { s with cmdQueue := rest } s.supervisor .stale)) ∧
      ∀ r, s.fresh (handleField c) = some r → exec .takeRevoke s = .next
        (State.complete
          (State.place (State.retire { s with cmdQueue := rest } (handleField c).slot) r.owner .revoked
            (.handle (handleField c))) s.supervisor .done 0 []))

/-- BIND: the code's binding becomes the handle of the issuer's own live reservation. -/
def Obligations.BindNamesTheIssuersOwnReservation : Prop :=
  ∀ (s : State) (p : Port) (rest : List Port) (c : Vector Byte 16), s.takeDue p rest c 0x05 →
    (4 ≤ field8 c 0x0B → exec .takeBind s = .next (State.refuse { s with cmdQueue := rest } p .badField)) ∧
    ∀ code : SelCode, field8 c 0x0B = code.val →
      (s.fresh (handleField c) = none →
        exec .takeBind s = .next (State.refuse { s with cmdQueue := rest } p .stale)) ∧
      ∀ r, s.fresh (handleField c) = some r →
        (r.owner ≠ p → exec .takeBind s = .next (State.refuse { s with cmdQueue := rest } p .notOwner)) ∧
        (r.owner = p → exec .takeBind s = .next
          (State.complete
            { s with
              cmdQueue := rest
              bindings := bankSet s.bindings p (bankSet (bankGet s.bindings p) code (some (handleField c))) }
            p .done 0 []))

/-- UNBIND: a code above 3 is BAD_FIELD; else the code becomes unbound, and DONE answers with the handle it held, if it
was bound. Every other binding and the table stay as they are. -/
def Obligations.UnbindFreesOneCode : Prop :=
  ∀ (s : State) (p : Port) (rest : List Port) (c : Vector Byte 16), s.takeDue p rest c 0x06 →
    (4 ≤ field8 c 0x0B → exec .takeUnbind s = .next (State.refuse { s with cmdQueue := rest } p .badField)) ∧
    ∀ code : SelCode, field8 c 0x0B = code.val →
      (s.binding p code = none → exec .takeUnbind s = .next
        (State.complete
          { s with
            cmdQueue := rest
            bindings := bankSet s.bindings p (bankSet (bankGet s.bindings p) code none) } p .done 0 [])) ∧
      ∀ h, s.binding p code = some h → exec .takeUnbind s = .next
        (State.complete
          { s with
            cmdQueue := rest
            bindings := bankSet s.bindings p (bankSet (bankGet s.bindings p) code none) } p .done 1 (handleBytes h))

/-- QUERY answers the record whole in the layout of R199 and QUERY_PORT the port, and neither changes anything but the
queue, the issuer's slot and CMD_DONE. -/
def Obligations.QueriesReportAndChangeNothing : Prop :=
  ∀ (s : State) (p : Port) (rest : List Port) (c : Vector Byte 16),
    (s.takeDue p rest c 0x07 →
      (s.fresh (handleField c) = none →
        exec .takeQuery s = .next (State.refuse { s with cmdQueue := rest } p .stale)) ∧
      ∀ r, s.fresh (handleField c) = some r →
        (r.owner ≠ p → p ≠ s.supervisor →
          exec .takeQuery s = .next (State.refuse { s with cmdQueue := rest } p .notOwner)) ∧
        (r.owner = p ∨ p = s.supervisor → exec .takeQuery s = .next
          (State.complete { s with cmdQueue := rest } p .done 1
            (handleBytes (handleField c) ++
              [liveStateCode r.state, BitVec.ofNat 8 r.owner.val, if r.cls = .fixed then 0x00 else 0x01,
                if r.preempt then 0x01 else 0x00] ++
              twoBytes r.share ++ twoBytes (r.pendingShare.getD 0) ++ twoBytes r.maxTenure ++
              [BitVec.ofNat 8 r.priority.val, BitVec.ofNat 8 r.leaseLength, BitVec.ofNat 8 r.leaseRemaining] ++
              twoBytes r.credit ++
              [(if r.causes.command then 0x01 else 0x00) + (if r.causes.fence then 0x02 else 0x00),
                BitVec.ofNat 8 r.shortfall] ++ twoBytes r.tag.toNat)))) ∧
    (s.takeDue s.supervisor rest c 0x18 →
      (8 ≤ field8 c 0x0B →
        exec .takeQueryPort s = .next (State.refuse { s with cmdQueue := rest } s.supervisor .badField)) ∧
      ∀ q : Port, field8 c 0x0B = q.val → exec .takeQueryPort s = .next
        (State.complete { s with cmdQueue := rest } s.supervisor .done 1
          ([portStateCode (s.port q).state, BitVec.ofNat 8 (s.port q).fenceCount, lastYieldCode (s.port q).lastYield,
              BitVec.ofNat 8 (s.owned q), maskByte fun code => (s.binding q code).isSome] ++
            optionHandleBytes (s.binding q 0) ++ optionHandleBytes (s.binding q 1) ++
            optionHandleBytes (s.binding q 2) ++ optionHandleBytes (s.binding q 3) ++
            [(if (bankGet s.waiting q).isSome then 0x01 else 0x00) |||
              (if ((bankGet s.waiting q).bind (·.handle)).isSome then 0x02 else 0x00)] ++
            optionHandleBytes ((bankGet s.waiting q).bind (·.handle)) ++ [rankCode (s.portRank q)])))

/-- LIST and RESET_TABLE begin a walk at S0: the slot RUNNING, its reply status kept (PENDING since the trigger). -/
def Obligations.WalksBeginAtSlotZero : Prop :=
  ∀ (s : State) (p : Port) (rest : List Port) (c : Vector Byte 16),
    (s.takeDue p rest c 0x08 →
      (32 ≤ field8 c 0x01 ∨ (p = s.supervisor ∧ 8 ≤ field8 c 0x0B) →
        exec .takeList s = .next (State.refuse { s with cmdQueue := rest } p .badField)) ∧
      ∀ (start : Slot) (listed : Port), field8 c 0x01 = start.val →
        (p = s.supervisor → field8 c 0x0B = listed.val) → (p ≠ s.supervisor → listed = p) →
        exec .takeList s = .next
          { s with
            cmdQueue := rest
            slots := bankSet s.slots p { s.slot p with state := .running }
            walk := some { issuer := p, next := 0, ticks := 0, kind := .list listed start [] } }) ∧
    (s.takeDue s.supervisor rest c 0x17 → exec .takeResetTable s = .next
      { s with
        cmdQueue := rest
        slots := bankSet s.slots s.supervisor { s.slot s.supervisor with state := .running }
        walk := some { issuer := s.supervisor, next := 0, ticks := 0, kind := .resetTable 0 false } })

/-- LIST_VISIT notes a live record of the listed port at or above the start slot; at S31 the reply carries the count and
the first seven handle and tag pairs, and the walk ends. -/
def Obligations.ListVisitNotesTheListedPortsRecords : Prop :=
  ∀ (s : State) (w : Walk) (listed : Port) (start : Slot) (found found' : List (Handle × BitVec 16)),
    s.rstLow = false → s.walk = some w → w.kind = .list listed start found →
    ((start ≤ w.next ∧ ∃ r, s.liveAt w.next = some r ∧ r.owner = listed ∧
        found' = found ++ [({ slot := w.next, generation := (s.record w.next).generation }, r.tag)]) ∨
      (¬(start ≤ w.next ∧ ∃ r, s.liveAt w.next = some r ∧ r.owner = listed) ∧ found' = found)) →
    (∀ j : Slot, j.val = w.next.val + 1 → exec .listVisit s = .next
      { s with walk := some { w with next := j, kind := .list listed start found' } }) ∧
    (w.next.val = 31 → exec .listVisit s = .next
      (State.complete { s with walk := none } w.issuer .done found'.length
        ((found'.take 7).flatMap fun x => handleBytes x.1 ++ twoBytes x.2.toNat)))

/-- RESET_TABLE_VISIT retires a live record with no notice and passes over a FREE one; at S31 TABLE_RESET is placed for
each attached port, and the reply with the count of the walk's own retirements is written unless the issuer's detach has
discarded it. -/
def Obligations.ResetTableVisitRetiresTheRecord : Prop :=
  ∀ (s : State) (w : Walk) (retired retired' : Nat) (discarded : Bool),
    s.rstLow = false → s.walk = some w → w.kind = .resetTable retired discarded →
    retired' = (if s.liveAt w.next = none then retired else retired + 1) →
    (∀ j : Slot, j.val = w.next.val + 1 → exec .resetTableVisit s = .next
      { s.retire w.next with walk := some { w with next := j, kind := .resetTable retired' discarded } }) ∧
    (w.next.val = 31 → ∀ u : State,
      u = { (allPorts.foldl (fun v q => v.place q .tableReset .none) (s.retire w.next)) with walk := none } →
      (discarded = true → exec .resetTableVisit s = .next u) ∧
      (discarded = false → exec .resetTableVisit s = .next (u.complete w.issuer .done 1 [BitVec.ofNat 8 retired'])))

/-- SUSPEND adds COMMAND and RESUME removes it, by the record's state and causes. -/
def Obligations.SuspendAndResumeMoveTheCommandCause : Prop :=
  ∀ (s : State) (rest : List Port) (c : Vector Byte 16) (h : Handle), h = handleField c →
    (s.takeDue s.supervisor rest c 0x12 →
      (s.fresh h = none → exec .takeSuspend s = .next (State.refuse { s with cmdQueue := rest } s.supervisor .stale)) ∧
      ∀ r, s.fresh h = some r →
        (r.state = .lapsed ∨ r.causes.command = true →
          exec .takeSuspend s = .next (State.refuse { s with cmdQueue := rest } s.supervisor .wrongState)) ∧
        (r.state ≠ .lapsed → r.causes.command = false → exec .takeSuspend s = .next
          (State.complete
            (State.place
              (State.testYield
                (State.withdrawDrawing
                  { s with
                    cmdQueue := rest
                    table := bankSet s.table h.slot
                      ((s.record h.slot).holding
                        { r with
                          state := .suspended, causes := { r.causes with command := true }
                          credit := if r.state = .active then 0 else r.credit }) } h r.cls))
              r.owner .suspended (.handle h))
            s.supervisor .done 1 [0x02, if r.causes.fence then 0x03 else 0x01]))) ∧
    (s.takeDue s.supervisor rest c 0x13 →
      (s.fresh h = none → exec .takeResume s = .next (State.refuse { s with cmdQueue := rest } s.supervisor .stale)) ∧
      ∀ r, s.fresh h = some r →
        (r.causes.command = false →
          exec .takeResume s = .next (State.refuse { s with cmdQueue := rest } s.supervisor .wrongState)) ∧
        (r.causes.command = true → r.causes.fence = false → exec .takeResume s = .next
          (State.complete
            (State.place
              { s with
                cmdQueue := rest
                table := bankSet s.table h.slot
                  ((s.record h.slot).holding
                    { r with state := .active, causes := { r.causes with command := false } }) }
              r.owner .resumed (.handle h))
            s.supervisor .done 1 [0x01, 0x00])) ∧
        (r.causes.command = true → r.causes.fence = true → exec .takeResume s = .next
          (State.complete
            { s with
              cmdQueue := rest
              table := bankSet s.table h.slot
                ((s.record h.slot).holding { r with causes := { r.causes with command := false } }) }
            s.supervisor .done 1 [liveStateCode r.state, 0x02])))

/-- DEMOTE sets all six rotation pointers to the named port, whatever its state, and changes nothing else but the queue,
the issuer's slot and CMD_DONE. -/
def Obligations.DemoteSetsEveryPointer : Prop :=
  ∀ (s : State) (rest : List Port) (c : Vector Byte 16), s.takeDue s.supervisor rest c 0x14 →
    (8 ≤ field8 c 0x0B →
      exec .takeDemote s = .next (State.refuse { s with cmdQueue := rest } s.supervisor .badField)) ∧
    ∀ q : Port, field8 c 0x0B = q.val → exec .takeDemote s = .next
      (State.complete { s with cmdQueue := rest, pointers := Vector.replicate 6 q } s.supervisor .done 0 [])

/-- CLEAR_FENCE: BAD_FIELD, WRONG_STATE, or the fence cleared: FENCE leaves the port's records, REQn is read, and the port
becomes WAITING with an entry, with the yield test, or IDLE. -/
def Obligations.ClearFenceReturnsThePort : Prop :=
  ∀ (s : State) (rest : List Port) (c : Vector Byte 16), s.takeDue s.supervisor rest c 0x15 →
    (8 ≤ field8 c 0x0B →
      exec .takeClearFence s = .next (State.refuse { s with cmdQueue := rest } s.supervisor .badField)) ∧
    ∀ q : Port, field8 c 0x0B = q.val →
      ((s.port q).state ≠ .fenced →
        exec .takeClearFence s = .next (State.refuse { s with cmdQueue := rest } s.supervisor .wrongState)) ∧
      ((s.port q).state = .fenced → ∃ v : State,
        v = { s with cmdQueue := rest, table := v.table, notices := v.notices } ∧
        (∀ k, (∀ r, s.liveAt k = some r → r.owner ≠ q ∨ r.causes.fence = false) → v.record k = s.record k) ∧
        (∀ k r, s.liveAt k = some r → r.owner = q → r.causes.fence = true → r.causes.command = true →
          v.record k = ((s.record k).holding { r with causes := { r.causes with fence := false } })) ∧
        (∀ k r, s.liveAt k = some r → r.owner = q → r.causes.fence = true → r.causes.command = false →
          v.record k = ((s.record k).holding
            { r with state := .active, credit := 0, causes := { r.causes with fence := false } })) ∧
        bankGet v.notices q =
          (allSlots.filterMap fun k =>
            match s.liveAt k with
            | none => none
            | some r =>
              if r.owner = q ∧ r.causes.fence = true ∧ r.causes.command = false then
                some { slot := k, generation := (s.record k).generation }
              else none).foldl (fun n h => n.insert .resumed (.handle h)) (bankGet s.notices q) ∧
        (∀ x, x ≠ q → bankGet v.notices x = bankGet s.notices x) ∧
        (bankGet s.req q = true → exec .takeClearFence s = .next
          (State.complete
            (State.testYield
              { v with
                waiting := bankSet s.waiting q (some { handle := s.binding q (bankGet s.sel q) })
                ports := bankSet s.ports q { s.port q with state := .waiting } })
            s.supervisor .done 1 [0x02])) ∧
        (bankGet s.req q = false → exec .takeClearFence s = .next
          (State.complete { v with ports := bankSet s.ports q { s.port q with state := .idle } }
            s.supervisor .done 1 [0x01])))

/-- SET_FRAME: the ranges, the present totals against the new values alone, else the pending configuration. -/
def Obligations.SetFrameBecomesPending : Prop :=
  ∀ (s : State) (rest : List Port) (c : Vector Byte 16), s.takeDue s.supervisor rest c 0x16 →
    ∀ (f : FrameConfig) (inRange : Prop),
      f =
        { capacity := field16 c 0x01, reserve := field16 c 0x03, frameTicks := field16 c 0x05, grace := field16 c 0x07
          idle := field16 c 0x09, spare := field16 c 0x0B } →
      (inRange ↔ 256 ≤ f.capacity ∧ 16 ≤ f.reserve ∧ f.reserve ≤ f.capacity / 2 ∧ 16 ≤ f.frameTicks ∧
        1 ≤ f.grace ∧ f.grace ≤ 255 ∧ 1 ≤ f.idle ∧ f.idle ≤ 255 ∧ 1 ≤ f.spare ∧ f.spare ≤ 1023) →
      (¬inRange → exec .takeSetFrame s = .next (State.refuse { s with cmdQueue := rest } s.supervisor .badField)) ∧
      (inRange → f.capacity - f.reserve < s.committed →
        exec .takeSetFrame s = .next (State.refuse { s with cmdQueue := rest } s.supervisor .capacity)) ∧
      (inRange → s.committed ≤ f.capacity - f.reserve → f.capacity / 8 < s.preemptTotal →
        exec .takeSetFrame s = .next (State.refuse { s with cmdQueue := rest } s.supervisor .preemptLimit)) ∧
      (inRange → s.committed ≤ f.capacity - f.reserve → s.preemptTotal ≤ f.capacity / 8 →
        exec .takeSetFrame s = .next
          (State.complete { s with cmdQueue := rest, pendingConfig := some f } s.supervisor .done 1
            (twoBytes s.frameNumber.toNat)))

/-! ## Invariants -/

/-- The totals are the sums of the contributions and fit both configurations. -/
def Obligations.AccountStaysExactAndWithinLimits : Prop :=
  ∀ s t : State, s.accountExact → s.limitsKept → step s = .next t → t.accountExact ∧ t.limitsKept

/-- The configurations stay in range, the tick count below FT, the sweep within sixteen ticks, the walk on time. -/
def Obligations.TimeSweepAndWalkStayInBounds : Prop :=
  ∀ s t : State, s.timeSound → s.walkOnTime → step s = .next t → t.timeSound ∧ t.walkOnTime

/-- Every live record keeps the laws of R1, R3, R4, R6, R13 and R18. -/
def Obligations.RecordsKeepTheirLaws : Prop :=
  ∀ s t : State, s.recordsSound → step s = .next t → t.recordsSound

/-- Every notice set keeps the laws of R188, and a DETACHED port's set is empty. -/
def Obligations.NoticeSetsKeepTheirLaws : Prop :=
  ∀ s t : State, s.noticesSound → step s = .next t → t.noticesSound

/-- At most one port holds the bus, the tenure in progress is its tenure, and a port waits exactly when it has an entry; and
the output lines of every port: GNTn and ENn in GRANTED, YIELDING or DRAINING, YLDn from the yield to the end of the port's
own tenure and never without GNTn, NTFn with the enable on and the set not empty, all withdrawn while RST# is low. -/
def Obligations.BusHasOneHolderAndEntriesWait : Prop :=
  (∀ s t : State, s.busSound → s.waitingSound → step s = .next t → t.busSound ∧ t.waitingSound) ∧
  ∀ (s : State) (p : Port),
    (s.rstLow = true → s.gntLine p = false ∧ s.enLine p = false ∧ s.yldLine p = false ∧ s.ntfLine p = false) ∧
    (s.rstLow = false →
      (s.gntLine p = true ↔ (s.port p).state ∈ [PortState.granted, .yielding, .draining]) ∧
      (s.enLine p = true ↔ (s.port p).state ∈ [PortState.granted, .yielding, .draining]) ∧
      (s.yldLine p = true ↔ ∃ t, s.tenure = some t ∧ t.holder = p ∧ t.yield ≠ none) ∧
      (s.ntfLine p = true ↔ (s.port p).ntfEnable = true ∧
        ((bankGet s.notices p).entries ≠ [] ∨ (bankGet s.notices p).overrun = true))) ∧
    (s.busSound → (s.yldLine p = true → s.gntLine p = true) ∧ ∀ q, s.gntLine p = true → s.gntLine q = true → q = p)

/-- No binding, waiting entry or tenure holds the handle of a record that is no longer live. -/
def Obligations.HandlesNameLiveReservations : Prop :=
  ∀ s t : State, s.handlesSound → step s = .next t → t.handlesSound

/-- The queue holds a port once and exactly when its slot is QUEUED, a slot runs exactly with its walk, and the reply reads
NONE in IDLE and PENDING in QUEUED and RUNNING, with count and data 0, and in DONE the status of a completed command, a
refusal with count and data 0. -/
def Obligations.QueueAndSlotsAgree : Prop :=
  ∀ s t : State, s.commandsSound → step s = .next t → t.commandsSound

/-- Every owner is attached and owns at most eight, while the bus is sound. -/
def Obligations.OwnersStayAttachedAndWithinEight : Prop :=
  ∀ s t : State, s.busSound → s.ownersSound → step s = .next t → t.ownersSound

/-- No step leaves a yield condition of R106 met by a GRANTED holder that has not been asked. -/
def Obligations.YieldConditionsNeverGoUnasked : Prop :=
  ∀ s t : State, s.timeSound → s.recordsSound → s.busSound → s.waitingSound → s.handlesSound → s.yieldsAsked →
    step s = .next t → t.yieldsAsked

/-- The machine in power-on reset keeps every one of these laws. -/
def Obligations.ResetKeepsEveryLaw : Prop :=
  State.reset.accountExact ∧ State.reset.limitsKept ∧ State.reset.timeSound ∧ State.reset.walkOnTime ∧
    State.reset.recordsSound ∧ State.reset.noticesSound ∧ State.reset.busSound ∧ State.reset.waitingSound ∧
    State.reset.handlesSound ∧ State.reset.commandsSound ∧ State.reset.ownersSound ∧ State.reset.yieldsAsked
end

