-- ==== Sys2Proof/Laws/State.lean ====
section
/-! SUPPORT. What each update of one record leaves in each field, and how the banks answer after an update. The names
are `<update>_<field>`. -/

namespace Sys2Proof

/-- An item just written reads back. -/
@[simp] theorem bankGet_bankSet_self {α : Type} {n : Nat} (v : Vector α n) (i : Fin n) (x : α) :
    bankGet (bankSet v i x) i = x := by
  simp [bankGet, bankSet, Vector.get_eq_getElem]

/-- The other items keep their values. -/
theorem bankGet_bankSet_ne {α : Type} {n : Nat} (v : Vector α n) {i j : Fin n} (h : j ≠ i) (x : α) :
    bankGet (bankSet v i x) j = bankGet v j := by
  have h' : i.val ≠ j.val := fun e => h (Fin.ext e.symm)
  simp [bankGet, bankSet, Vector.get_eq_getElem, h']

/-- An item after a write of one item. -/
theorem bankGet_bankSet {α : Type} {n : Nat} (v : Vector α n) (i j : Fin n) (x : α) :
    bankGet (bankSet v i x) j = if j = i then x else bankGet v j := by
  by_cases h : j = i
  · subst h; simp
  · simp [h, bankGet_bankSet_ne v h]

/-- An item of a changed bank. -/
@[simp] theorem bankGet_bankMap {α β : Type} {n : Nat} (f : Fin n → α → β) (v : Vector α n) (i : Fin n) :
    bankGet (bankMap f v) i = f i (bankGet v i) := by
  simp [bankGet, bankMap, Vector.get_eq_getElem]

/-- An item of a bank of equal items. -/
@[simp] theorem bankGet_replicate {α : Type} {n : Nat} (x : α) (i : Fin n) :
    bankGet (Vector.replicate n x) i = x := by
  simp [bankGet, Vector.get_eq_getElem]

/-- Two banks with the same items are equal. -/
theorem bank_ext {α : Type} {n : Nat} {v w : Vector α n} (h : ∀ i, bankGet v i = bankGet w i) : v = w := by
  ext i hi
  simpa [bankGet, Vector.get_eq_getElem] using h ⟨i, hi⟩

/-- Writing the value an item holds changes nothing. -/
@[simp] theorem bankSet_bankGet {α : Type} {n : Nat} (v : Vector α n) (i : Fin n) : bankSet v i (bankGet v i) = v := by
  apply bank_ext
  intro j
  by_cases h : j = i
  · subst h; simp
  · simp [bankGet_bankSet_ne v h]

/-- The second of two writes of one item stands. -/
@[simp] theorem bankSet_bankSet {α : Type} {n : Nat} (v : Vector α n) (i : Fin n) (x y : α) :
    bankSet (bankSet v i x) i y = bankSet v i y := by
  apply bank_ext
  intro j
  by_cases h : j = i
  · subst h; simp
  · simp [bankGet_bankSet_ne _ h]

end Sys2Proof

namespace Sys2Proof.Machine

/-! ## setPort -/

@[simp] theorem State.setPort_rstLow (s : State) (p : Port) (r : PortRecord) : (s.setPort p r).rstLow = s.rstLow := rfl
@[simp] theorem State.setPort_pres (s : State) (p : Port) (r : PortRecord) : (s.setPort p r).pres = s.pres := rfl
@[simp] theorem State.setPort_req (s : State) (p : Port) (r : PortRecord) : (s.setPort p r).req = s.req := rfl
@[simp] theorem State.setPort_sel (s : State) (p : Port) (r : PortRecord) : (s.setPort p r).sel = s.sel := rfl
@[simp] theorem State.setPort_driven (s : State) (p : Port) (r : PortRecord) : (s.setPort p r).driven = s.driven := rfl
@[simp] theorem State.setPort_supervisor (s : State) (p : Port) (r : PortRecord) : (s.setPort p r).supervisor = s.supervisor := rfl
@[simp] theorem State.setPort_windowBase (s : State) (p : Port) (r : PortRecord) : (s.setPort p r).windowBase = s.windowBase := rfl
@[simp] theorem State.setPort_ports (s : State) (p : Port) (r : PortRecord) : (s.setPort p r).ports = bankSet s.ports p r := rfl
@[simp] theorem State.setPort_table (s : State) (p : Port) (r : PortRecord) : (s.setPort p r).table = s.table := rfl
@[simp] theorem State.setPort_bindings (s : State) (p : Port) (r : PortRecord) : (s.setPort p r).bindings = s.bindings := rfl
@[simp] theorem State.setPort_committed (s : State) (p : Port) (r : PortRecord) : (s.setPort p r).committed = s.committed := rfl
@[simp] theorem State.setPort_preemptTotal (s : State) (p : Port) (r : PortRecord) : (s.setPort p r).preemptTotal = s.preemptTotal := rfl
@[simp] theorem State.setPort_pendingConfig (s : State) (p : Port) (r : PortRecord) : (s.setPort p r).pendingConfig = s.pendingConfig := rfl
@[simp] theorem State.setPort_config (s : State) (p : Port) (r : PortRecord) : (s.setPort p r).config = s.config := rfl
@[simp] theorem State.setPort_tickCount (s : State) (p : Port) (r : PortRecord) : (s.setPort p r).tickCount = s.tickCount := rfl
@[simp] theorem State.setPort_frameNumber (s : State) (p : Port) (r : PortRecord) : (s.setPort p r).frameNumber = s.frameNumber := rfl
@[simp] theorem State.setPort_sweep (s : State) (p : Port) (r : PortRecord) : (s.setPort p r).sweep = s.sweep := rfl
@[simp] theorem State.setPort_snapshots (s : State) (p : Port) (r : PortRecord) : (s.setPort p r).snapshots = s.snapshots := rfl
@[simp] theorem State.setPort_waiting (s : State) (p : Port) (r : PortRecord) : (s.setPort p r).waiting = s.waiting := rfl
@[simp] theorem State.setPort_pointers (s : State) (p : Port) (r : PortRecord) : (s.setPort p r).pointers = s.pointers := rfl
@[simp] theorem State.setPort_tenure (s : State) (p : Port) (r : PortRecord) : (s.setPort p r).tenure = s.tenure := rfl
@[simp] theorem State.setPort_pendingOrder (s : State) (p : Port) (r : PortRecord) : (s.setPort p r).pendingOrder = s.pendingOrder := rfl
@[simp] theorem State.setPort_slots (s : State) (p : Port) (r : PortRecord) : (s.setPort p r).slots = s.slots := rfl
@[simp] theorem State.setPort_cmdQueue (s : State) (p : Port) (r : PortRecord) : (s.setPort p r).cmdQueue = s.cmdQueue := rfl
@[simp] theorem State.setPort_walk (s : State) (p : Port) (r : PortRecord) : (s.setPort p r).walk = s.walk := rfl
@[simp] theorem State.setPort_late (s : State) (p : Port) (r : PortRecord) : (s.setPort p r).late = s.late := rfl
@[simp] theorem State.setPort_notices (s : State) (p : Port) (r : PortRecord) : (s.setPort p r).notices = s.notices := rfl
@[simp] theorem State.setPort_latches (s : State) (p : Port) (r : PortRecord) : (s.setPort p r).latches = s.latches := rfl
@[simp] theorem State.setPort_pending (s : State) (p : Port) (r : PortRecord) : (s.setPort p r).pending = s.pending := rfl

/-! ## setPortState -/

@[simp] theorem State.setPortState_rstLow (s : State) (p : Port) (x : PortState) : (s.setPortState p x).rstLow = s.rstLow := rfl
@[simp] theorem State.setPortState_pres (s : State) (p : Port) (x : PortState) : (s.setPortState p x).pres = s.pres := rfl
@[simp] theorem State.setPortState_req (s : State) (p : Port) (x : PortState) : (s.setPortState p x).req = s.req := rfl
@[simp] theorem State.setPortState_sel (s : State) (p : Port) (x : PortState) : (s.setPortState p x).sel = s.sel := rfl
@[simp] theorem State.setPortState_driven (s : State) (p : Port) (x : PortState) : (s.setPortState p x).driven = s.driven := rfl
@[simp] theorem State.setPortState_supervisor (s : State) (p : Port) (x : PortState) : (s.setPortState p x).supervisor = s.supervisor := rfl
@[simp] theorem State.setPortState_windowBase (s : State) (p : Port) (x : PortState) : (s.setPortState p x).windowBase = s.windowBase := rfl
@[simp] theorem State.setPortState_ports (s : State) (p : Port) (x : PortState) : (s.setPortState p x).ports = bankSet s.ports p { s.port p with state := x } := rfl
@[simp] theorem State.setPortState_table (s : State) (p : Port) (x : PortState) : (s.setPortState p x).table = s.table := rfl
@[simp] theorem State.setPortState_bindings (s : State) (p : Port) (x : PortState) : (s.setPortState p x).bindings = s.bindings := rfl
@[simp] theorem State.setPortState_committed (s : State) (p : Port) (x : PortState) : (s.setPortState p x).committed = s.committed := rfl
@[simp] theorem State.setPortState_preemptTotal (s : State) (p : Port) (x : PortState) : (s.setPortState p x).preemptTotal = s.preemptTotal := rfl
@[simp] theorem State.setPortState_pendingConfig (s : State) (p : Port) (x : PortState) : (s.setPortState p x).pendingConfig = s.pendingConfig := rfl
@[simp] theorem State.setPortState_config (s : State) (p : Port) (x : PortState) : (s.setPortState p x).config = s.config := rfl
@[simp] theorem State.setPortState_tickCount (s : State) (p : Port) (x : PortState) : (s.setPortState p x).tickCount = s.tickCount := rfl
@[simp] theorem State.setPortState_frameNumber (s : State) (p : Port) (x : PortState) : (s.setPortState p x).frameNumber = s.frameNumber := rfl
@[simp] theorem State.setPortState_sweep (s : State) (p : Port) (x : PortState) : (s.setPortState p x).sweep = s.sweep := rfl
@[simp] theorem State.setPortState_snapshots (s : State) (p : Port) (x : PortState) : (s.setPortState p x).snapshots = s.snapshots := rfl
@[simp] theorem State.setPortState_waiting (s : State) (p : Port) (x : PortState) : (s.setPortState p x).waiting = s.waiting := rfl
@[simp] theorem State.setPortState_pointers (s : State) (p : Port) (x : PortState) : (s.setPortState p x).pointers = s.pointers := rfl
@[simp] theorem State.setPortState_tenure (s : State) (p : Port) (x : PortState) : (s.setPortState p x).tenure = s.tenure := rfl
@[simp] theorem State.setPortState_pendingOrder (s : State) (p : Port) (x : PortState) : (s.setPortState p x).pendingOrder = s.pendingOrder := rfl
@[simp] theorem State.setPortState_slots (s : State) (p : Port) (x : PortState) : (s.setPortState p x).slots = s.slots := rfl
@[simp] theorem State.setPortState_cmdQueue (s : State) (p : Port) (x : PortState) : (s.setPortState p x).cmdQueue = s.cmdQueue := rfl
@[simp] theorem State.setPortState_walk (s : State) (p : Port) (x : PortState) : (s.setPortState p x).walk = s.walk := rfl
@[simp] theorem State.setPortState_late (s : State) (p : Port) (x : PortState) : (s.setPortState p x).late = s.late := rfl
@[simp] theorem State.setPortState_notices (s : State) (p : Port) (x : PortState) : (s.setPortState p x).notices = s.notices := rfl
@[simp] theorem State.setPortState_latches (s : State) (p : Port) (x : PortState) : (s.setPortState p x).latches = s.latches := rfl
@[simp] theorem State.setPortState_pending (s : State) (p : Port) (x : PortState) : (s.setPortState p x).pending = s.pending := rfl

/-! ## setRecord -/

@[simp] theorem State.setRecord_rstLow (s : State) (k : Slot) (r : TableRecord) : (s.setRecord k r).rstLow = s.rstLow := rfl
@[simp] theorem State.setRecord_pres (s : State) (k : Slot) (r : TableRecord) : (s.setRecord k r).pres = s.pres := rfl
@[simp] theorem State.setRecord_req (s : State) (k : Slot) (r : TableRecord) : (s.setRecord k r).req = s.req := rfl
@[simp] theorem State.setRecord_sel (s : State) (k : Slot) (r : TableRecord) : (s.setRecord k r).sel = s.sel := rfl
@[simp] theorem State.setRecord_driven (s : State) (k : Slot) (r : TableRecord) : (s.setRecord k r).driven = s.driven := rfl
@[simp] theorem State.setRecord_supervisor (s : State) (k : Slot) (r : TableRecord) : (s.setRecord k r).supervisor = s.supervisor := rfl
@[simp] theorem State.setRecord_windowBase (s : State) (k : Slot) (r : TableRecord) : (s.setRecord k r).windowBase = s.windowBase := rfl
@[simp] theorem State.setRecord_ports (s : State) (k : Slot) (r : TableRecord) : (s.setRecord k r).ports = s.ports := rfl
@[simp] theorem State.setRecord_table (s : State) (k : Slot) (r : TableRecord) : (s.setRecord k r).table = bankSet s.table k r := rfl
@[simp] theorem State.setRecord_bindings (s : State) (k : Slot) (r : TableRecord) : (s.setRecord k r).bindings = s.bindings := rfl
@[simp] theorem State.setRecord_committed (s : State) (k : Slot) (r : TableRecord) : (s.setRecord k r).committed = s.committed := rfl
@[simp] theorem State.setRecord_preemptTotal (s : State) (k : Slot) (r : TableRecord) : (s.setRecord k r).preemptTotal = s.preemptTotal := rfl
@[simp] theorem State.setRecord_pendingConfig (s : State) (k : Slot) (r : TableRecord) : (s.setRecord k r).pendingConfig = s.pendingConfig := rfl
@[simp] theorem State.setRecord_config (s : State) (k : Slot) (r : TableRecord) : (s.setRecord k r).config = s.config := rfl
@[simp] theorem State.setRecord_tickCount (s : State) (k : Slot) (r : TableRecord) : (s.setRecord k r).tickCount = s.tickCount := rfl
@[simp] theorem State.setRecord_frameNumber (s : State) (k : Slot) (r : TableRecord) : (s.setRecord k r).frameNumber = s.frameNumber := rfl
@[simp] theorem State.setRecord_sweep (s : State) (k : Slot) (r : TableRecord) : (s.setRecord k r).sweep = s.sweep := rfl
@[simp] theorem State.setRecord_snapshots (s : State) (k : Slot) (r : TableRecord) : (s.setRecord k r).snapshots = s.snapshots := rfl
@[simp] theorem State.setRecord_waiting (s : State) (k : Slot) (r : TableRecord) : (s.setRecord k r).waiting = s.waiting := rfl
@[simp] theorem State.setRecord_pointers (s : State) (k : Slot) (r : TableRecord) : (s.setRecord k r).pointers = s.pointers := rfl
@[simp] theorem State.setRecord_tenure (s : State) (k : Slot) (r : TableRecord) : (s.setRecord k r).tenure = s.tenure := rfl
@[simp] theorem State.setRecord_pendingOrder (s : State) (k : Slot) (r : TableRecord) : (s.setRecord k r).pendingOrder = s.pendingOrder := rfl
@[simp] theorem State.setRecord_slots (s : State) (k : Slot) (r : TableRecord) : (s.setRecord k r).slots = s.slots := rfl
@[simp] theorem State.setRecord_cmdQueue (s : State) (k : Slot) (r : TableRecord) : (s.setRecord k r).cmdQueue = s.cmdQueue := rfl
@[simp] theorem State.setRecord_walk (s : State) (k : Slot) (r : TableRecord) : (s.setRecord k r).walk = s.walk := rfl
@[simp] theorem State.setRecord_late (s : State) (k : Slot) (r : TableRecord) : (s.setRecord k r).late = s.late := rfl
@[simp] theorem State.setRecord_notices (s : State) (k : Slot) (r : TableRecord) : (s.setRecord k r).notices = s.notices := rfl
@[simp] theorem State.setRecord_latches (s : State) (k : Slot) (r : TableRecord) : (s.setRecord k r).latches = s.latches := rfl
@[simp] theorem State.setRecord_pending (s : State) (k : Slot) (r : TableRecord) : (s.setRecord k r).pending = s.pending := rfl

/-! ## setLive -/

@[simp] theorem State.setLive_rstLow (s : State) (k : Slot) (r : Reservation) : (s.setLive k r).rstLow = s.rstLow := rfl
@[simp] theorem State.setLive_pres (s : State) (k : Slot) (r : Reservation) : (s.setLive k r).pres = s.pres := rfl
@[simp] theorem State.setLive_req (s : State) (k : Slot) (r : Reservation) : (s.setLive k r).req = s.req := rfl
@[simp] theorem State.setLive_sel (s : State) (k : Slot) (r : Reservation) : (s.setLive k r).sel = s.sel := rfl
@[simp] theorem State.setLive_driven (s : State) (k : Slot) (r : Reservation) : (s.setLive k r).driven = s.driven := rfl
@[simp] theorem State.setLive_supervisor (s : State) (k : Slot) (r : Reservation) : (s.setLive k r).supervisor = s.supervisor := rfl
@[simp] theorem State.setLive_windowBase (s : State) (k : Slot) (r : Reservation) : (s.setLive k r).windowBase = s.windowBase := rfl
@[simp] theorem State.setLive_ports (s : State) (k : Slot) (r : Reservation) : (s.setLive k r).ports = s.ports := rfl
@[simp] theorem State.setLive_table (s : State) (k : Slot) (r : Reservation) : (s.setLive k r).table = bankSet s.table k { s.record k with live := some r } := rfl
@[simp] theorem State.setLive_bindings (s : State) (k : Slot) (r : Reservation) : (s.setLive k r).bindings = s.bindings := rfl
@[simp] theorem State.setLive_committed (s : State) (k : Slot) (r : Reservation) : (s.setLive k r).committed = s.committed := rfl
@[simp] theorem State.setLive_preemptTotal (s : State) (k : Slot) (r : Reservation) : (s.setLive k r).preemptTotal = s.preemptTotal := rfl
@[simp] theorem State.setLive_pendingConfig (s : State) (k : Slot) (r : Reservation) : (s.setLive k r).pendingConfig = s.pendingConfig := rfl
@[simp] theorem State.setLive_config (s : State) (k : Slot) (r : Reservation) : (s.setLive k r).config = s.config := rfl
@[simp] theorem State.setLive_tickCount (s : State) (k : Slot) (r : Reservation) : (s.setLive k r).tickCount = s.tickCount := rfl
@[simp] theorem State.setLive_frameNumber (s : State) (k : Slot) (r : Reservation) : (s.setLive k r).frameNumber = s.frameNumber := rfl
@[simp] theorem State.setLive_sweep (s : State) (k : Slot) (r : Reservation) : (s.setLive k r).sweep = s.sweep := rfl
@[simp] theorem State.setLive_snapshots (s : State) (k : Slot) (r : Reservation) : (s.setLive k r).snapshots = s.snapshots := rfl
@[simp] theorem State.setLive_waiting (s : State) (k : Slot) (r : Reservation) : (s.setLive k r).waiting = s.waiting := rfl
@[simp] theorem State.setLive_pointers (s : State) (k : Slot) (r : Reservation) : (s.setLive k r).pointers = s.pointers := rfl
@[simp] theorem State.setLive_tenure (s : State) (k : Slot) (r : Reservation) : (s.setLive k r).tenure = s.tenure := rfl
@[simp] theorem State.setLive_pendingOrder (s : State) (k : Slot) (r : Reservation) : (s.setLive k r).pendingOrder = s.pendingOrder := rfl
@[simp] theorem State.setLive_slots (s : State) (k : Slot) (r : Reservation) : (s.setLive k r).slots = s.slots := rfl
@[simp] theorem State.setLive_cmdQueue (s : State) (k : Slot) (r : Reservation) : (s.setLive k r).cmdQueue = s.cmdQueue := rfl
@[simp] theorem State.setLive_walk (s : State) (k : Slot) (r : Reservation) : (s.setLive k r).walk = s.walk := rfl
@[simp] theorem State.setLive_late (s : State) (k : Slot) (r : Reservation) : (s.setLive k r).late = s.late := rfl
@[simp] theorem State.setLive_notices (s : State) (k : Slot) (r : Reservation) : (s.setLive k r).notices = s.notices := rfl
@[simp] theorem State.setLive_latches (s : State) (k : Slot) (r : Reservation) : (s.setLive k r).latches = s.latches := rfl
@[simp] theorem State.setLive_pending (s : State) (k : Slot) (r : Reservation) : (s.setLive k r).pending = s.pending := rfl

/-! ## setTenure -/

@[simp] theorem State.setTenure_rstLow (s : State) (t : Option Tenure) : (s.setTenure t).rstLow = s.rstLow := rfl
@[simp] theorem State.setTenure_pres (s : State) (t : Option Tenure) : (s.setTenure t).pres = s.pres := rfl
@[simp] theorem State.setTenure_req (s : State) (t : Option Tenure) : (s.setTenure t).req = s.req := rfl
@[simp] theorem State.setTenure_sel (s : State) (t : Option Tenure) : (s.setTenure t).sel = s.sel := rfl
@[simp] theorem State.setTenure_driven (s : State) (t : Option Tenure) : (s.setTenure t).driven = s.driven := rfl
@[simp] theorem State.setTenure_supervisor (s : State) (t : Option Tenure) : (s.setTenure t).supervisor = s.supervisor := rfl
@[simp] theorem State.setTenure_windowBase (s : State) (t : Option Tenure) : (s.setTenure t).windowBase = s.windowBase := rfl
@[simp] theorem State.setTenure_ports (s : State) (t : Option Tenure) : (s.setTenure t).ports = s.ports := rfl
@[simp] theorem State.setTenure_table (s : State) (t : Option Tenure) : (s.setTenure t).table = s.table := rfl
@[simp] theorem State.setTenure_bindings (s : State) (t : Option Tenure) : (s.setTenure t).bindings = s.bindings := rfl
@[simp] theorem State.setTenure_committed (s : State) (t : Option Tenure) : (s.setTenure t).committed = s.committed := rfl
@[simp] theorem State.setTenure_preemptTotal (s : State) (t : Option Tenure) : (s.setTenure t).preemptTotal = s.preemptTotal := rfl
@[simp] theorem State.setTenure_pendingConfig (s : State) (t : Option Tenure) : (s.setTenure t).pendingConfig = s.pendingConfig := rfl
@[simp] theorem State.setTenure_config (s : State) (t : Option Tenure) : (s.setTenure t).config = s.config := rfl
@[simp] theorem State.setTenure_tickCount (s : State) (t : Option Tenure) : (s.setTenure t).tickCount = s.tickCount := rfl
@[simp] theorem State.setTenure_frameNumber (s : State) (t : Option Tenure) : (s.setTenure t).frameNumber = s.frameNumber := rfl
@[simp] theorem State.setTenure_sweep (s : State) (t : Option Tenure) : (s.setTenure t).sweep = s.sweep := rfl
@[simp] theorem State.setTenure_snapshots (s : State) (t : Option Tenure) : (s.setTenure t).snapshots = s.snapshots := rfl
@[simp] theorem State.setTenure_waiting (s : State) (t : Option Tenure) : (s.setTenure t).waiting = s.waiting := rfl
@[simp] theorem State.setTenure_pointers (s : State) (t : Option Tenure) : (s.setTenure t).pointers = s.pointers := rfl
@[simp] theorem State.setTenure_tenure (s : State) (t : Option Tenure) : (s.setTenure t).tenure = t := rfl
@[simp] theorem State.setTenure_pendingOrder (s : State) (t : Option Tenure) : (s.setTenure t).pendingOrder = s.pendingOrder := rfl
@[simp] theorem State.setTenure_slots (s : State) (t : Option Tenure) : (s.setTenure t).slots = s.slots := rfl
@[simp] theorem State.setTenure_cmdQueue (s : State) (t : Option Tenure) : (s.setTenure t).cmdQueue = s.cmdQueue := rfl
@[simp] theorem State.setTenure_walk (s : State) (t : Option Tenure) : (s.setTenure t).walk = s.walk := rfl
@[simp] theorem State.setTenure_late (s : State) (t : Option Tenure) : (s.setTenure t).late = s.late := rfl
@[simp] theorem State.setTenure_notices (s : State) (t : Option Tenure) : (s.setTenure t).notices = s.notices := rfl
@[simp] theorem State.setTenure_latches (s : State) (t : Option Tenure) : (s.setTenure t).latches = s.latches := rfl
@[simp] theorem State.setTenure_pending (s : State) (t : Option Tenure) : (s.setTenure t).pending = s.pending := rfl

/-! ## setWaiting -/

@[simp] theorem State.setWaiting_rstLow (s : State) (p : Port) (e : Option WaitingEntry) : (s.setWaiting p e).rstLow = s.rstLow := rfl
@[simp] theorem State.setWaiting_pres (s : State) (p : Port) (e : Option WaitingEntry) : (s.setWaiting p e).pres = s.pres := rfl
@[simp] theorem State.setWaiting_req (s : State) (p : Port) (e : Option WaitingEntry) : (s.setWaiting p e).req = s.req := rfl
@[simp] theorem State.setWaiting_sel (s : State) (p : Port) (e : Option WaitingEntry) : (s.setWaiting p e).sel = s.sel := rfl
@[simp] theorem State.setWaiting_driven (s : State) (p : Port) (e : Option WaitingEntry) : (s.setWaiting p e).driven = s.driven := rfl
@[simp] theorem State.setWaiting_supervisor (s : State) (p : Port) (e : Option WaitingEntry) : (s.setWaiting p e).supervisor = s.supervisor := rfl
@[simp] theorem State.setWaiting_windowBase (s : State) (p : Port) (e : Option WaitingEntry) : (s.setWaiting p e).windowBase = s.windowBase := rfl
@[simp] theorem State.setWaiting_ports (s : State) (p : Port) (e : Option WaitingEntry) : (s.setWaiting p e).ports = s.ports := rfl
@[simp] theorem State.setWaiting_table (s : State) (p : Port) (e : Option WaitingEntry) : (s.setWaiting p e).table = s.table := rfl
@[simp] theorem State.setWaiting_bindings (s : State) (p : Port) (e : Option WaitingEntry) : (s.setWaiting p e).bindings = s.bindings := rfl
@[simp] theorem State.setWaiting_committed (s : State) (p : Port) (e : Option WaitingEntry) : (s.setWaiting p e).committed = s.committed := rfl
@[simp] theorem State.setWaiting_preemptTotal (s : State) (p : Port) (e : Option WaitingEntry) : (s.setWaiting p e).preemptTotal = s.preemptTotal := rfl
@[simp] theorem State.setWaiting_pendingConfig (s : State) (p : Port) (e : Option WaitingEntry) : (s.setWaiting p e).pendingConfig = s.pendingConfig := rfl
@[simp] theorem State.setWaiting_config (s : State) (p : Port) (e : Option WaitingEntry) : (s.setWaiting p e).config = s.config := rfl
@[simp] theorem State.setWaiting_tickCount (s : State) (p : Port) (e : Option WaitingEntry) : (s.setWaiting p e).tickCount = s.tickCount := rfl
@[simp] theorem State.setWaiting_frameNumber (s : State) (p : Port) (e : Option WaitingEntry) : (s.setWaiting p e).frameNumber = s.frameNumber := rfl
@[simp] theorem State.setWaiting_sweep (s : State) (p : Port) (e : Option WaitingEntry) : (s.setWaiting p e).sweep = s.sweep := rfl
@[simp] theorem State.setWaiting_snapshots (s : State) (p : Port) (e : Option WaitingEntry) : (s.setWaiting p e).snapshots = s.snapshots := rfl
@[simp] theorem State.setWaiting_waiting (s : State) (p : Port) (e : Option WaitingEntry) : (s.setWaiting p e).waiting = bankSet s.waiting p e := rfl
@[simp] theorem State.setWaiting_pointers (s : State) (p : Port) (e : Option WaitingEntry) : (s.setWaiting p e).pointers = s.pointers := rfl
@[simp] theorem State.setWaiting_tenure (s : State) (p : Port) (e : Option WaitingEntry) : (s.setWaiting p e).tenure = s.tenure := rfl
@[simp] theorem State.setWaiting_pendingOrder (s : State) (p : Port) (e : Option WaitingEntry) : (s.setWaiting p e).pendingOrder = s.pendingOrder := rfl
@[simp] theorem State.setWaiting_slots (s : State) (p : Port) (e : Option WaitingEntry) : (s.setWaiting p e).slots = s.slots := rfl
@[simp] theorem State.setWaiting_cmdQueue (s : State) (p : Port) (e : Option WaitingEntry) : (s.setWaiting p e).cmdQueue = s.cmdQueue := rfl
@[simp] theorem State.setWaiting_walk (s : State) (p : Port) (e : Option WaitingEntry) : (s.setWaiting p e).walk = s.walk := rfl
@[simp] theorem State.setWaiting_late (s : State) (p : Port) (e : Option WaitingEntry) : (s.setWaiting p e).late = s.late := rfl
@[simp] theorem State.setWaiting_notices (s : State) (p : Port) (e : Option WaitingEntry) : (s.setWaiting p e).notices = s.notices := rfl
@[simp] theorem State.setWaiting_latches (s : State) (p : Port) (e : Option WaitingEntry) : (s.setWaiting p e).latches = s.latches := rfl
@[simp] theorem State.setWaiting_pending (s : State) (p : Port) (e : Option WaitingEntry) : (s.setWaiting p e).pending = s.pending := rfl

/-! ## setBinding -/

@[simp] theorem State.setBinding_rstLow (s : State) (p : Port) (c : SelCode) (h : Option Handle) : (s.setBinding p c h).rstLow = s.rstLow := rfl
@[simp] theorem State.setBinding_pres (s : State) (p : Port) (c : SelCode) (h : Option Handle) : (s.setBinding p c h).pres = s.pres := rfl
@[simp] theorem State.setBinding_req (s : State) (p : Port) (c : SelCode) (h : Option Handle) : (s.setBinding p c h).req = s.req := rfl
@[simp] theorem State.setBinding_sel (s : State) (p : Port) (c : SelCode) (h : Option Handle) : (s.setBinding p c h).sel = s.sel := rfl
@[simp] theorem State.setBinding_driven (s : State) (p : Port) (c : SelCode) (h : Option Handle) : (s.setBinding p c h).driven = s.driven := rfl
@[simp] theorem State.setBinding_supervisor (s : State) (p : Port) (c : SelCode) (h : Option Handle) : (s.setBinding p c h).supervisor = s.supervisor := rfl
@[simp] theorem State.setBinding_windowBase (s : State) (p : Port) (c : SelCode) (h : Option Handle) : (s.setBinding p c h).windowBase = s.windowBase := rfl
@[simp] theorem State.setBinding_ports (s : State) (p : Port) (c : SelCode) (h : Option Handle) : (s.setBinding p c h).ports = s.ports := rfl
@[simp] theorem State.setBinding_table (s : State) (p : Port) (c : SelCode) (h : Option Handle) : (s.setBinding p c h).table = s.table := rfl
@[simp] theorem State.setBinding_bindings (s : State) (p : Port) (c : SelCode) (h : Option Handle) : (s.setBinding p c h).bindings = bankSet s.bindings p (bankSet (bankGet s.bindings p) c h) := rfl
@[simp] theorem State.setBinding_committed (s : State) (p : Port) (c : SelCode) (h : Option Handle) : (s.setBinding p c h).committed = s.committed := rfl
@[simp] theorem State.setBinding_preemptTotal (s : State) (p : Port) (c : SelCode) (h : Option Handle) : (s.setBinding p c h).preemptTotal = s.preemptTotal := rfl
@[simp] theorem State.setBinding_pendingConfig (s : State) (p : Port) (c : SelCode) (h : Option Handle) : (s.setBinding p c h).pendingConfig = s.pendingConfig := rfl
@[simp] theorem State.setBinding_config (s : State) (p : Port) (c : SelCode) (h : Option Handle) : (s.setBinding p c h).config = s.config := rfl
@[simp] theorem State.setBinding_tickCount (s : State) (p : Port) (c : SelCode) (h : Option Handle) : (s.setBinding p c h).tickCount = s.tickCount := rfl
@[simp] theorem State.setBinding_frameNumber (s : State) (p : Port) (c : SelCode) (h : Option Handle) : (s.setBinding p c h).frameNumber = s.frameNumber := rfl
@[simp] theorem State.setBinding_sweep (s : State) (p : Port) (c : SelCode) (h : Option Handle) : (s.setBinding p c h).sweep = s.sweep := rfl
@[simp] theorem State.setBinding_snapshots (s : State) (p : Port) (c : SelCode) (h : Option Handle) : (s.setBinding p c h).snapshots = s.snapshots := rfl
@[simp] theorem State.setBinding_waiting (s : State) (p : Port) (c : SelCode) (h : Option Handle) : (s.setBinding p c h).waiting = s.waiting := rfl
@[simp] theorem State.setBinding_pointers (s : State) (p : Port) (c : SelCode) (h : Option Handle) : (s.setBinding p c h).pointers = s.pointers := rfl
@[simp] theorem State.setBinding_tenure (s : State) (p : Port) (c : SelCode) (h : Option Handle) : (s.setBinding p c h).tenure = s.tenure := rfl
@[simp] theorem State.setBinding_pendingOrder (s : State) (p : Port) (c : SelCode) (h : Option Handle) : (s.setBinding p c h).pendingOrder = s.pendingOrder := rfl
@[simp] theorem State.setBinding_slots (s : State) (p : Port) (c : SelCode) (h : Option Handle) : (s.setBinding p c h).slots = s.slots := rfl
@[simp] theorem State.setBinding_cmdQueue (s : State) (p : Port) (c : SelCode) (h : Option Handle) : (s.setBinding p c h).cmdQueue = s.cmdQueue := rfl
@[simp] theorem State.setBinding_walk (s : State) (p : Port) (c : SelCode) (h : Option Handle) : (s.setBinding p c h).walk = s.walk := rfl
@[simp] theorem State.setBinding_late (s : State) (p : Port) (c : SelCode) (h : Option Handle) : (s.setBinding p c h).late = s.late := rfl
@[simp] theorem State.setBinding_notices (s : State) (p : Port) (c : SelCode) (h : Option Handle) : (s.setBinding p c h).notices = s.notices := rfl
@[simp] theorem State.setBinding_latches (s : State) (p : Port) (c : SelCode) (h : Option Handle) : (s.setBinding p c h).latches = s.latches := rfl
@[simp] theorem State.setBinding_pending (s : State) (p : Port) (c : SelCode) (h : Option Handle) : (s.setBinding p c h).pending = s.pending := rfl

/-! ## setSlot -/

@[simp] theorem State.setSlot_rstLow (s : State) (p : Port) (c : CommandSlot) : (s.setSlot p c).rstLow = s.rstLow := rfl
@[simp] theorem State.setSlot_pres (s : State) (p : Port) (c : CommandSlot) : (s.setSlot p c).pres = s.pres := rfl
@[simp] theorem State.setSlot_req (s : State) (p : Port) (c : CommandSlot) : (s.setSlot p c).req = s.req := rfl
@[simp] theorem State.setSlot_sel (s : State) (p : Port) (c : CommandSlot) : (s.setSlot p c).sel = s.sel := rfl
@[simp] theorem State.setSlot_driven (s : State) (p : Port) (c : CommandSlot) : (s.setSlot p c).driven = s.driven := rfl
@[simp] theorem State.setSlot_supervisor (s : State) (p : Port) (c : CommandSlot) : (s.setSlot p c).supervisor = s.supervisor := rfl
@[simp] theorem State.setSlot_windowBase (s : State) (p : Port) (c : CommandSlot) : (s.setSlot p c).windowBase = s.windowBase := rfl
@[simp] theorem State.setSlot_ports (s : State) (p : Port) (c : CommandSlot) : (s.setSlot p c).ports = s.ports := rfl
@[simp] theorem State.setSlot_table (s : State) (p : Port) (c : CommandSlot) : (s.setSlot p c).table = s.table := rfl
@[simp] theorem State.setSlot_bindings (s : State) (p : Port) (c : CommandSlot) : (s.setSlot p c).bindings = s.bindings := rfl
@[simp] theorem State.setSlot_committed (s : State) (p : Port) (c : CommandSlot) : (s.setSlot p c).committed = s.committed := rfl
@[simp] theorem State.setSlot_preemptTotal (s : State) (p : Port) (c : CommandSlot) : (s.setSlot p c).preemptTotal = s.preemptTotal := rfl
@[simp] theorem State.setSlot_pendingConfig (s : State) (p : Port) (c : CommandSlot) : (s.setSlot p c).pendingConfig = s.pendingConfig := rfl
@[simp] theorem State.setSlot_config (s : State) (p : Port) (c : CommandSlot) : (s.setSlot p c).config = s.config := rfl
@[simp] theorem State.setSlot_tickCount (s : State) (p : Port) (c : CommandSlot) : (s.setSlot p c).tickCount = s.tickCount := rfl
@[simp] theorem State.setSlot_frameNumber (s : State) (p : Port) (c : CommandSlot) : (s.setSlot p c).frameNumber = s.frameNumber := rfl
@[simp] theorem State.setSlot_sweep (s : State) (p : Port) (c : CommandSlot) : (s.setSlot p c).sweep = s.sweep := rfl
@[simp] theorem State.setSlot_snapshots (s : State) (p : Port) (c : CommandSlot) : (s.setSlot p c).snapshots = s.snapshots := rfl
@[simp] theorem State.setSlot_waiting (s : State) (p : Port) (c : CommandSlot) : (s.setSlot p c).waiting = s.waiting := rfl
@[simp] theorem State.setSlot_pointers (s : State) (p : Port) (c : CommandSlot) : (s.setSlot p c).pointers = s.pointers := rfl
@[simp] theorem State.setSlot_tenure (s : State) (p : Port) (c : CommandSlot) : (s.setSlot p c).tenure = s.tenure := rfl
@[simp] theorem State.setSlot_pendingOrder (s : State) (p : Port) (c : CommandSlot) : (s.setSlot p c).pendingOrder = s.pendingOrder := rfl
@[simp] theorem State.setSlot_slots (s : State) (p : Port) (c : CommandSlot) : (s.setSlot p c).slots = bankSet s.slots p c := rfl
@[simp] theorem State.setSlot_cmdQueue (s : State) (p : Port) (c : CommandSlot) : (s.setSlot p c).cmdQueue = s.cmdQueue := rfl
@[simp] theorem State.setSlot_walk (s : State) (p : Port) (c : CommandSlot) : (s.setSlot p c).walk = s.walk := rfl
@[simp] theorem State.setSlot_late (s : State) (p : Port) (c : CommandSlot) : (s.setSlot p c).late = s.late := rfl
@[simp] theorem State.setSlot_notices (s : State) (p : Port) (c : CommandSlot) : (s.setSlot p c).notices = s.notices := rfl
@[simp] theorem State.setSlot_latches (s : State) (p : Port) (c : CommandSlot) : (s.setSlot p c).latches = s.latches := rfl
@[simp] theorem State.setSlot_pending (s : State) (p : Port) (c : CommandSlot) : (s.setSlot p c).pending = s.pending := rfl

/-! ## setNotices -/

@[simp] theorem State.setNotices_rstLow (s : State) (p : Port) (n : NoticeSet) : (s.setNotices p n).rstLow = s.rstLow := rfl
@[simp] theorem State.setNotices_pres (s : State) (p : Port) (n : NoticeSet) : (s.setNotices p n).pres = s.pres := rfl
@[simp] theorem State.setNotices_req (s : State) (p : Port) (n : NoticeSet) : (s.setNotices p n).req = s.req := rfl
@[simp] theorem State.setNotices_sel (s : State) (p : Port) (n : NoticeSet) : (s.setNotices p n).sel = s.sel := rfl
@[simp] theorem State.setNotices_driven (s : State) (p : Port) (n : NoticeSet) : (s.setNotices p n).driven = s.driven := rfl
@[simp] theorem State.setNotices_supervisor (s : State) (p : Port) (n : NoticeSet) : (s.setNotices p n).supervisor = s.supervisor := rfl
@[simp] theorem State.setNotices_windowBase (s : State) (p : Port) (n : NoticeSet) : (s.setNotices p n).windowBase = s.windowBase := rfl
@[simp] theorem State.setNotices_ports (s : State) (p : Port) (n : NoticeSet) : (s.setNotices p n).ports = s.ports := rfl
@[simp] theorem State.setNotices_table (s : State) (p : Port) (n : NoticeSet) : (s.setNotices p n).table = s.table := rfl
@[simp] theorem State.setNotices_bindings (s : State) (p : Port) (n : NoticeSet) : (s.setNotices p n).bindings = s.bindings := rfl
@[simp] theorem State.setNotices_committed (s : State) (p : Port) (n : NoticeSet) : (s.setNotices p n).committed = s.committed := rfl
@[simp] theorem State.setNotices_preemptTotal (s : State) (p : Port) (n : NoticeSet) : (s.setNotices p n).preemptTotal = s.preemptTotal := rfl
@[simp] theorem State.setNotices_pendingConfig (s : State) (p : Port) (n : NoticeSet) : (s.setNotices p n).pendingConfig = s.pendingConfig := rfl
@[simp] theorem State.setNotices_config (s : State) (p : Port) (n : NoticeSet) : (s.setNotices p n).config = s.config := rfl
@[simp] theorem State.setNotices_tickCount (s : State) (p : Port) (n : NoticeSet) : (s.setNotices p n).tickCount = s.tickCount := rfl
@[simp] theorem State.setNotices_frameNumber (s : State) (p : Port) (n : NoticeSet) : (s.setNotices p n).frameNumber = s.frameNumber := rfl
@[simp] theorem State.setNotices_sweep (s : State) (p : Port) (n : NoticeSet) : (s.setNotices p n).sweep = s.sweep := rfl
@[simp] theorem State.setNotices_snapshots (s : State) (p : Port) (n : NoticeSet) : (s.setNotices p n).snapshots = s.snapshots := rfl
@[simp] theorem State.setNotices_waiting (s : State) (p : Port) (n : NoticeSet) : (s.setNotices p n).waiting = s.waiting := rfl
@[simp] theorem State.setNotices_pointers (s : State) (p : Port) (n : NoticeSet) : (s.setNotices p n).pointers = s.pointers := rfl
@[simp] theorem State.setNotices_tenure (s : State) (p : Port) (n : NoticeSet) : (s.setNotices p n).tenure = s.tenure := rfl
@[simp] theorem State.setNotices_pendingOrder (s : State) (p : Port) (n : NoticeSet) : (s.setNotices p n).pendingOrder = s.pendingOrder := rfl
@[simp] theorem State.setNotices_slots (s : State) (p : Port) (n : NoticeSet) : (s.setNotices p n).slots = s.slots := rfl
@[simp] theorem State.setNotices_cmdQueue (s : State) (p : Port) (n : NoticeSet) : (s.setNotices p n).cmdQueue = s.cmdQueue := rfl
@[simp] theorem State.setNotices_walk (s : State) (p : Port) (n : NoticeSet) : (s.setNotices p n).walk = s.walk := rfl
@[simp] theorem State.setNotices_late (s : State) (p : Port) (n : NoticeSet) : (s.setNotices p n).late = s.late := rfl
@[simp] theorem State.setNotices_notices (s : State) (p : Port) (n : NoticeSet) : (s.setNotices p n).notices = bankSet s.notices p n := rfl
@[simp] theorem State.setNotices_latches (s : State) (p : Port) (n : NoticeSet) : (s.setNotices p n).latches = s.latches := rfl
@[simp] theorem State.setNotices_pending (s : State) (p : Port) (n : NoticeSet) : (s.setNotices p n).pending = s.pending := rfl

/-! ## setLatch -/

@[simp] theorem State.setLatch_rstLow (s : State) (p : Port) (l : Latch) : (s.setLatch p l).rstLow = s.rstLow := rfl
@[simp] theorem State.setLatch_pres (s : State) (p : Port) (l : Latch) : (s.setLatch p l).pres = s.pres := rfl
@[simp] theorem State.setLatch_req (s : State) (p : Port) (l : Latch) : (s.setLatch p l).req = s.req := rfl
@[simp] theorem State.setLatch_sel (s : State) (p : Port) (l : Latch) : (s.setLatch p l).sel = s.sel := rfl
@[simp] theorem State.setLatch_driven (s : State) (p : Port) (l : Latch) : (s.setLatch p l).driven = s.driven := rfl
@[simp] theorem State.setLatch_supervisor (s : State) (p : Port) (l : Latch) : (s.setLatch p l).supervisor = s.supervisor := rfl
@[simp] theorem State.setLatch_windowBase (s : State) (p : Port) (l : Latch) : (s.setLatch p l).windowBase = s.windowBase := rfl
@[simp] theorem State.setLatch_ports (s : State) (p : Port) (l : Latch) : (s.setLatch p l).ports = s.ports := rfl
@[simp] theorem State.setLatch_table (s : State) (p : Port) (l : Latch) : (s.setLatch p l).table = s.table := rfl
@[simp] theorem State.setLatch_bindings (s : State) (p : Port) (l : Latch) : (s.setLatch p l).bindings = s.bindings := rfl
@[simp] theorem State.setLatch_committed (s : State) (p : Port) (l : Latch) : (s.setLatch p l).committed = s.committed := rfl
@[simp] theorem State.setLatch_preemptTotal (s : State) (p : Port) (l : Latch) : (s.setLatch p l).preemptTotal = s.preemptTotal := rfl
@[simp] theorem State.setLatch_pendingConfig (s : State) (p : Port) (l : Latch) : (s.setLatch p l).pendingConfig = s.pendingConfig := rfl
@[simp] theorem State.setLatch_config (s : State) (p : Port) (l : Latch) : (s.setLatch p l).config = s.config := rfl
@[simp] theorem State.setLatch_tickCount (s : State) (p : Port) (l : Latch) : (s.setLatch p l).tickCount = s.tickCount := rfl
@[simp] theorem State.setLatch_frameNumber (s : State) (p : Port) (l : Latch) : (s.setLatch p l).frameNumber = s.frameNumber := rfl
@[simp] theorem State.setLatch_sweep (s : State) (p : Port) (l : Latch) : (s.setLatch p l).sweep = s.sweep := rfl
@[simp] theorem State.setLatch_snapshots (s : State) (p : Port) (l : Latch) : (s.setLatch p l).snapshots = s.snapshots := rfl
@[simp] theorem State.setLatch_waiting (s : State) (p : Port) (l : Latch) : (s.setLatch p l).waiting = s.waiting := rfl
@[simp] theorem State.setLatch_pointers (s : State) (p : Port) (l : Latch) : (s.setLatch p l).pointers = s.pointers := rfl
@[simp] theorem State.setLatch_tenure (s : State) (p : Port) (l : Latch) : (s.setLatch p l).tenure = s.tenure := rfl
@[simp] theorem State.setLatch_pendingOrder (s : State) (p : Port) (l : Latch) : (s.setLatch p l).pendingOrder = s.pendingOrder := rfl
@[simp] theorem State.setLatch_slots (s : State) (p : Port) (l : Latch) : (s.setLatch p l).slots = s.slots := rfl
@[simp] theorem State.setLatch_cmdQueue (s : State) (p : Port) (l : Latch) : (s.setLatch p l).cmdQueue = s.cmdQueue := rfl
@[simp] theorem State.setLatch_walk (s : State) (p : Port) (l : Latch) : (s.setLatch p l).walk = s.walk := rfl
@[simp] theorem State.setLatch_late (s : State) (p : Port) (l : Latch) : (s.setLatch p l).late = s.late := rfl
@[simp] theorem State.setLatch_notices (s : State) (p : Port) (l : Latch) : (s.setLatch p l).notices = s.notices := rfl
@[simp] theorem State.setLatch_latches (s : State) (p : Port) (l : Latch) : (s.setLatch p l).latches = bankSet s.latches p l := rfl
@[simp] theorem State.setLatch_pending (s : State) (p : Port) (l : Latch) : (s.setLatch p l).pending = s.pending := rfl

/-! ## Reading through an update -/

theorem State.port_setPort (s : State) (p q : Port) (r : PortRecord) :
    (s.setPort p r).port q = if q = p then r else s.port q := bankGet_bankSet _ _ _ _

theorem State.port_setPortState (s : State) (p q : Port) (x : PortState) :
    (s.setPortState p x).port q = if q = p then { s.port p with state := x } else s.port q := bankGet_bankSet _ _ _ _

theorem State.record_setRecord (s : State) (k j : Slot) (r : TableRecord) :
    (s.setRecord k r).record j = if j = k then r else s.record j := bankGet_bankSet _ _ _ _

theorem State.record_setLive (s : State) (k j : Slot) (r : Reservation) :
    (s.setLive k r).record j = if j = k then { s.record k with live := some r } else s.record j := bankGet_bankSet _ _ _ _

theorem State.slot_setSlot (s : State) (p q : Port) (c : CommandSlot) :
    (s.setSlot p c).slot q = if q = p then c else s.slot q := bankGet_bankSet _ _ _ _

theorem State.liveAt_setLive (s : State) (k j : Slot) (r : Reservation) :
    (s.setLive k r).liveAt j = if j = k then some r else s.liveAt j := by
  unfold State.liveAt
  rw [State.record_setLive]
  by_cases h : j = k
  · simp [h]
  · simp [h]

/-- A slot's generation is kept by a write of its live fields. -/
theorem State.generation_setLive (s : State) (k j : Slot) (r : Reservation) :
    ((s.setLive k r).record j).generation = (s.record j).generation := by
  rw [State.record_setLive]
  by_cases h : j = k
  · simp [h]
  · simp [h]

theorem State.liveAt_setRecord (s : State) (k j : Slot) (r : TableRecord) :
    (s.setRecord k r).liveAt j = if j = k then r.live else s.liveAt j := by
  unfold State.liveAt
  rw [State.record_setRecord]
  by_cases h : j = k
  · simp [h]
  · simp [h]

theorem State.binding_setBinding (s : State) (p q : Port) (c d : SelCode) (h : Option Handle) :
    (s.setBinding p c h).binding q d = if q = p ∧ d = c then h else s.binding q d := by
  unfold State.binding
  rw [State.setBinding_bindings]
  by_cases hq : q = p
  · subst hq
    rw [bankGet_bankSet_self, bankGet_bankSet]
    by_cases hd : d = c <;> simp [hd]
  · rw [bankGet_bankSet_ne _ hq]
    simp [hq]

end Sys2Proof.Machine
end

