-- ==== Sys2Proof/Laws/Ops.lean ====
section
/-! SUPPORT. One lemma for each shared operation that says once everything it can touch (`<operation>_frame`: the
result is the state with those fields replaced and no other), and lemmas on what yields, placements and charges do. -/

namespace Sys2Proof.Machine

/-! ## Yields -/

theorem State.assertYield_frame (s : State) (t : Tenure) (r : YieldReason) :
    ∃ a b, s.assertYield t r = { s with ports := a, tenure := b } := ⟨_, _, rfl⟩

theorem State.raiseYield_frame (s : State) (r : YieldReason) :
    ∃ a b, s.raiseYield r = { s with ports := a, tenure := b } := by
  unfold State.raiseYield
  split
  · exact ⟨s.ports, s.tenure, rfl⟩
  · split
    · exact ⟨_, _, rfl⟩
    · exact ⟨s.ports, s.tenure, rfl⟩

/-- The test of R106 either asserts the first condition met or changes nothing. -/
theorem State.testYield_cases (s : State) :
    (∃ t r, s.tenure = some t ∧ s.mayYield t = true ∧ s.yieldCondition t = some r ∧ s.testYield = s.assertYield t r) ∨
      (s.testYield = s ∧ ∀ t, s.tenure = some t → s.mayYield t = true → s.yieldCondition t = none) := by
  unfold State.testYield
  cases ht : s.tenure with
  | none => right; simp
  | some t =>
    by_cases hm : s.mayYield t = true
    · cases hc : s.yieldCondition t with
      | none => right; simp [hm, hc]
      | some r => left; exact ⟨t, r, rfl, hm, hc, by simp [hm, hc]⟩
    · right; simp [hm]

theorem State.testYield_frame (s : State) : ∃ a b, s.testYield = { s with ports := a, tenure := b } := by
  rcases s.testYield_cases with ⟨t, r, _, _, _, h⟩ | ⟨h, _⟩
  · rw [h]; exact ⟨_, _, rfl⟩
  · rw [h]; exact ⟨s.ports, s.tenure, rfl⟩

/-- With no tenure the test changes nothing. -/
theorem State.testYield_of_no_tenure (s : State) (h : s.tenure = none) : s.testYield = s := by
  unfold State.testYield; rw [h]

theorem State.withdrawDrawing_frame (s : State) (h : Handle) (cls : ResClass) :
    ∃ a b, s.withdrawDrawing h cls = { s with ports := a, tenure := b } := by
  unfold State.withdrawDrawing
  split
  · exact ⟨s.ports, s.tenure, rfl⟩
  · rename_i t _
    split
    · cases cls with
      | fixed =>
        obtain ⟨a, b, e⟩ := State.raiseYield_frame (s.setTenure (some { t with drawing := none, standing := .three }))
          .withdrawn
        exact ⟨a, b, e⟩
      | elastic => exact ⟨s.ports, _, rfl⟩
    · exact ⟨s.ports, s.tenure, rfl⟩

theorem State.refillStanding_frame (s : State) (h : Handle) (cls : ResClass) :
    ∃ b, s.refillStanding h cls = { s with tenure := b } := by
  unfold State.refillStanding
  split
  · exact ⟨s.tenure, rfl⟩
  · split
    · exact ⟨_, rfl⟩
    · exact ⟨s.tenure, rfl⟩

theorem State.endTenure_frame (s : State) (p : Port) (x : PortState) :
    s.endTenure p x = { s with
      ports := bankSet s.ports p { s.port p with state := x }
      tenure := none
      pendingOrder := s.pendingOrder.map fun _ => Strobe.stray } := rfl

/-- At the end of a tenure its list is empty: every entry of the pending order is a stray (R97, R99). -/
theorem State.endTenure_cycles (s : State) (p : Port) (x : PortState) : (s.endTenure p x).cycles = [] := by
  simp [State.cycles, State.endTenure, State.setPortState, State.setPort, Strobe.cycle?]

/-! ## Retirement -/

theorem State.retireRecord_frame (s : State) (k : Slot) :
    ∃ a b c d e f g, s.retireRecord k = { s with
      table := a, committed := b, preemptTotal := c, bindings := d, waiting := e, ports := f, tenure := g } := by
  unfold State.retireRecord
  split
  · exact ⟨s.table, s.committed, s.preemptTotal, s.bindings, s.waiting, s.ports, s.tenure, rfl⟩
  · rename_i r _
    obtain ⟨x, y, e⟩ := State.withdrawDrawing_frame
      { s.setRecord k { generation := (s.record k).generation + 1, live := none } with
        committed := s.committed - r.contribution
        preemptTotal := s.preemptTotal - preemptPart r r.contribution
        bindings := bankSet s.bindings r.owner (bankMap (fun _ => dropBinding (s.handleAt k)) (bankGet s.bindings r.owner))
        waiting := bankMap (fun _ => dropWaiting (s.handleAt k)) s.waiting } (s.handleAt k) r.cls
    exact ⟨_, _, _, _, _, x, y, by rw [e]; rfl⟩

/-- What retirement leaves in the table, the account, the bindings and the waiting set (R25, R26). -/
theorem State.retireRecord_live (s : State) (k : Slot) (r : Reservation) (h : s.liveAt k = some r) :
    (s.retireRecord k).table = bankSet s.table k { generation := (s.record k).generation + 1, live := none } ∧
      (s.retireRecord k).committed = s.committed - r.contribution ∧
      (s.retireRecord k).preemptTotal = s.preemptTotal - preemptPart r r.contribution ∧
      (s.retireRecord k).bindings =
        bankSet s.bindings r.owner (bankMap (fun _ => dropBinding (s.handleAt k)) (bankGet s.bindings r.owner)) ∧
      (s.retireRecord k).waiting = bankMap (fun _ => dropWaiting (s.handleAt k)) s.waiting := by
  unfold State.retireRecord
  rw [h]
  obtain ⟨x, y, e⟩ := State.withdrawDrawing_frame
    { s.setRecord k { generation := (s.record k).generation + 1, live := none } with
      committed := s.committed - r.contribution
      preemptTotal := s.preemptTotal - preemptPart r r.contribution
      bindings := bankSet s.bindings r.owner (bankMap (fun _ => dropBinding (s.handleAt k)) (bankGet s.bindings r.owner))
      waiting := bankMap (fun _ => dropWaiting (s.handleAt k)) s.waiting } (s.handleAt k) r.cls
  dsimp only
  rw [e]
  exact ⟨rfl, rfl, rfl, rfl, rfl⟩

/-- A FREE slot is not retired. -/
theorem State.retireRecord_free (s : State) (k : Slot) (h : s.liveAt k = none) : s.retireRecord k = s := by
  unfold State.retireRecord; rw [h]

theorem State.retire_frame (s : State) (k : Slot) :
    ∃ a b c d e f g, s.retire k = { s with
      table := a, committed := b, preemptTotal := c, bindings := d, waiting := e, ports := f, tenure := g } := by
  obtain ⟨a, b, c, d, e, f, g, h⟩ := s.retireRecord_frame k
  obtain ⟨x, y, h'⟩ := (s.retireRecord k).testYield_frame
  refine ⟨a, b, c, d, e, x, y, ?_⟩
  unfold State.retire
  rw [h', h]

theorem State.retireOwned_frame (s : State) (p : Port) :
    ∃ a b c d e f g, s.retireOwned p = { s with
      table := a, committed := b, preemptTotal := c, bindings := d, waiting := e, ports := f, tenure := g } := by
  unfold State.retireOwned
  generalize allSlots = l
  induction l generalizing s with
  | nil => exact ⟨s.table, s.committed, s.preemptTotal, s.bindings, s.waiting, s.ports, s.tenure, rfl⟩
  | cons k l ih =>
    rw [List.foldl_cons]
    split
    · obtain ⟨a, b, c, d, e, f, g, h⟩ := ih (s.retireRecord k)
      obtain ⟨a', b', c', d', e', f', g', h'⟩ := s.retireRecord_frame k
      exact ⟨a, b, c, d, e, f, g, by rw [h, h']⟩
    · exact ih s

/-! ## Notices -/

theorem State.place_frame (s : State) (p : Port) (k : NoticeKind) (x : Subject) :
    ∃ a, s.place p k x = { s with notices := a } := by
  unfold State.place
  split
  · exact ⟨s.notices, rfl⟩
  · exact ⟨_, rfl⟩

theorem State.placeIf_frame (s : State) (p : Port) (k : Option NoticeKind) (x : Subject) :
    ∃ a, s.placeIf p k x = { s with notices := a } := by
  cases k with
  | none => exact ⟨s.notices, rfl⟩
  | some k => exact s.place_frame p k x

/-- A placement reaches one port's set (R189). -/
theorem State.place_notices (s : State) (p q : Port) (k : NoticeKind) (x : Subject) :
    bankGet (s.place p k x).notices q =
      if q = p ∧ (s.port p).state ≠ .detached then (bankGet s.notices p).insert k x else bankGet s.notices q := by
  unfold State.place
  by_cases hd : (s.port p).state = .detached
  · simp [hd]
  · simp only [hd, if_false, State.setNotices_notices, bankGet_bankSet]
    by_cases hq : q = p <;> simp [hq, hd]

theorem State.takeNotice_frame (s : State) (p : Port) :
    ∃ a b, s.takeNotice p = { s with notices := a, latches := b } := by
  simp only [State.takeNotice]
  split
  · exact ⟨_, _, rfl⟩
  · split
    · exact ⟨s.notices, _, rfl⟩
    · exact ⟨_, _, rfl⟩

theorem State.placeTableReset_frame (s : State) : ∃ a, s.placeTableReset = { s with notices := a } := by
  unfold State.placeTableReset
  generalize allPorts = l
  induction l generalizing s with
  | nil => exact ⟨s.notices, rfl⟩
  | cons p l ih =>
    rw [List.foldl_cons]
    obtain ⟨a, h⟩ := ih (s.place p .tableReset .none)
    obtain ⟨b, h'⟩ := s.place_frame p .tableReset .none
    exact ⟨a, by rw [h, h']⟩

/-! ## Requests -/

theorem State.makeEntry_frame (s : State) (p : Port) :
    ∃ a b, s.makeEntry p = { s with
      waiting := bankSet s.waiting p (some { handle := s.binding p (bankGet s.sel p) }), ports := a, tenure := b } := by
  obtain ⟨a, b, h⟩ := State.testYield_frame
    ((s.setWaiting p (some { handle := s.binding p (bankGet s.sel p) })).setPortState p .waiting)
  exact ⟨a, b, by unfold State.makeEntry; rw [h]; rfl⟩

theorem State.releaseBus_frame (s : State) (p : Port) :
    ∃ a b c, s.releaseBus p = { s with ports := a, tenure := b, pendingOrder := c } := by
  unfold State.releaseBus
  split
  · exact ⟨s.ports, s.tenure, s.pendingOrder, rfl⟩
  · split
    · split
      · exact ⟨_, _, _, rfl⟩
      · exact ⟨_, _, s.pendingOrder, rfl⟩
    · exact ⟨s.ports, s.tenure, s.pendingOrder, rfl⟩

theorem State.requestFalls_frame (s : State) (p : Port) :
    ∃ a b c d, s.requestFalls p = { s with
      req := bankSet s.req p false, ports := a, tenure := b, pendingOrder := c, waiting := d } := by
  simp only [State.requestFalls]
  split
  · exact ⟨s.ports, s.tenure, s.pendingOrder, s.waiting, rfl⟩
  · split
    · obtain ⟨a, b, h⟩ := State.testYield_frame
        ((({ s with req := bankSet s.req p false } : State).setWaiting p none).setPortState p .idle)
      exact ⟨a, b, s.pendingOrder, _, by rw [h]; rfl⟩
    · obtain ⟨a, b, c, h⟩ := ({ s with req := bankSet s.req p false } : State).releaseBus_frame p
      exact ⟨a, b, c, s.waiting, by rw [h]⟩
    · obtain ⟨a, b, c, h⟩ := ({ s with req := bankSet s.req p false } : State).releaseBus_frame p
      exact ⟨a, b, c, s.waiting, by rw [h]⟩
    all_goals exact ⟨s.ports, s.tenure, s.pendingOrder, s.waiting, rfl⟩

/-! ## Charging and the window -/

theorem State.chargeRecord_frame (s : State) (h : Handle) (cost : Nat) :
    ∃ a b c, s.chargeRecord h cost = { s with table := a, ports := b, tenure := c } := by
  unfold State.chargeRecord
  split
  · exact ⟨s.table, s.ports, s.tenure, rfl⟩
  · rename_i r _
    simp only
    split
    · split
      · obtain ⟨a, b, e⟩ := State.raiseYield_frame (s.setLive h.slot { r with credit := r.credit - cost }) .spent
        exact ⟨_, a, b, by rw [e]; rfl⟩
      · exact ⟨_, s.ports, _, rfl⟩
      · exact ⟨_, s.ports, s.tenure, rfl⟩
    · exact ⟨_, s.ports, s.tenure, rfl⟩

theorem State.charge_frame (s : State) (cost : Nat) :
    ∃ a b c, s.charge cost = { s with table := a, ports := b, tenure := c } := by
  unfold State.charge
  split
  · exact ⟨s.table, s.ports, s.tenure, rfl⟩
  · rename_i t _
    simp only
    split
    · obtain ⟨a, b, e⟩ := State.testYield_frame
        (s.setTenure (some { t with usage := min 65535 (t.usage + cost), idleTicks := 0 }))
      exact ⟨s.table, a, b, by rw [e]; rfl⟩
    · rename_i h _
      obtain ⟨x, y, z, e⟩ := State.chargeRecord_frame
        (s.setTenure (some { t with usage := min 65535 (t.usage + cost), idleTicks := 0 })) h cost
      obtain ⟨a, b, e'⟩ := State.testYield_frame
        (State.chargeRecord (s.setTenure (some { t with usage := min 65535 (t.usage + cost), idleTicks := 0 })) h cost)
      exact ⟨x, a, b, by rw [e', e]; rfl⟩

theorem State.finishDrain_frame (s : State) :
    ∃ a b c, s.finishDrain = { s with ports := a, tenure := b, pendingOrder := c } := by
  unfold State.finishDrain
  split
  · exact ⟨s.ports, s.tenure, s.pendingOrder, rfl⟩
  · split
    · exact ⟨_, _, _, rfl⟩
    · exact ⟨s.ports, s.tenure, s.pendingOrder, rfl⟩

theorem State.windowStore_frame (s : State) (p : Port) (o : Nat) (d : Byte) :
    ∃ a b c e, s.windowStore p o d = { s with slots := a, cmdQueue := b, ports := c, late := e } := by
  unfold State.windowStore
  split
  · split
    · exact ⟨_, s.cmdQueue, s.ports, s.late, rfl⟩
    · unfold State.triggerSlot
      split
      · exact ⟨_, _, s.ports, _, rfl⟩
      · exact ⟨_, _, s.ports, _, rfl⟩
      · exact ⟨_, s.cmdQueue, s.ports, s.late, rfl⟩
      · exact ⟨_, s.cmdQueue, s.ports, s.late, rfl⟩
  · split
    · exact ⟨_, s.cmdQueue, s.ports, s.late, rfl⟩
    · split
      · exact ⟨s.slots, s.cmdQueue, _, s.late, rfl⟩
      · exact ⟨s.slots, s.cmdQueue, s.ports, s.late, rfl⟩

theorem State.windowRead_frame (s : State) (p : Port) (o : Nat) :
    ∃ a b c d, s.windowRead p o = { s with notices := a, latches := b, snapshots := c, driven := d } := by
  simp only [State.windowRead]
  split
  · obtain ⟨a, b, h⟩ := s.takeNotice_frame p
    rw [h]
    exact ⟨a, b, s.snapshots, _, rfl⟩
  · split
    · exact ⟨s.notices, s.latches, _, _, rfl⟩
    · exact ⟨s.notices, s.latches, s.snapshots, _, rfl⟩

theorem State.windowEffect_frame (s : State) (x : Option WindowAccess) (d : Byte) :
    ∃ a b c e f g h l, s.windowEffect x d = { s with
      slots := a, cmdQueue := b, ports := c, notices := e, latches := f, snapshots := g, driven := h, late := l } := by
  unfold State.windowEffect
  split
  · exact ⟨s.slots, s.cmdQueue, s.ports, s.notices, s.latches, s.snapshots, none, s.late, rfl⟩
  · rename_i w
    split
    · obtain ⟨a, b, c, l, e⟩ := s.windowStore_frame w.port w.offset.toNat d
      exact ⟨a, b, c, s.notices, s.latches, s.snapshots, none, l, by rw [e]⟩
    · obtain ⟨a, b, c, e, h⟩ := s.windowRead_frame w.port w.offset.toNat
      exact ⟨s.slots, s.cmdQueue, s.ports, a, b, c, e, s.late, by rw [h]⟩

/-- A ready touches nothing but the pending order, the holder's lines and tenure, the record it charges, and what a
window access of the holder reaches. -/
theorem State.readyEvent_frame (s : State) (d : Byte) :
    ∃ a b c e f g h i j k l, s.readyEvent d = { s with
      pendingOrder := a, ports := b, tenure := c, table := e, slots := f, cmdQueue := g, notices := h, latches := i
      snapshots := j, driven := k, late := l } := by
  have same (o : List Strobe) (x : Option Byte) : ∃ a b c e f g h i j k l, { s with pendingOrder := o, driven := x } = { s with
      pendingOrder := a, ports := b, tenure := c, table := e, slots := f, cmdQueue := g, notices := h, latches := i
      snapshots := j, driven := k, late := l } :=
    ⟨o, s.ports, s.tenure, s.table, s.slots, s.cmdQueue, s.notices, s.latches, s.snapshots, x, s.late, rfl⟩
  unfold State.readyEvent
  split
  · exact same s.pendingOrder s.driven
  · split
    · exact same s.pendingOrder none
    · exact same _ none
    · rename_i c rest _
      split
      · exact same rest none
      · obtain ⟨a1, b1, c1, d1, e1, f1, g1, l1, h1⟩ := s.windowEffect_frame c.access d
        obtain ⟨a2, b2, c2, h2⟩ := State.charge_frame { s.windowEffect c.access d with pendingOrder := rest } c.cost
        obtain ⟨a3, b3, c3, h3⟩ := State.finishDrain_frame
          (State.charge { s.windowEffect c.access d with pendingOrder := rest } c.cost)
        simp only
        exact ⟨c3, a3, b3, a2, a1, b1, d1, e1, f1, g1, l1, by rw [h3, h2, h1]⟩

/-! ## Commands -/

theorem State.complete_frame (s : State) (p : Port) (x : ReplyStatus) (n : Nat) (bs : List Byte) :
    ∃ a, s.complete p x n bs = { s with
      slots := bankSet s.slots p { s.slot p with state := .done, status := x, count := n, data := replyData bs }
      notices := a } := by
  obtain ⟨a, h⟩ := State.place_frame
    (s.setSlot p { s.slot p with state := .done, status := x, count := n, data := replyData bs }) p .cmdDone .none
  exact ⟨a, by unfold State.complete; rw [h]; rfl⟩

/-- A take that is due runs its body on the state without the oldest port in the queue. -/
theorem State.take_due (s : State) (p : Port) (rest : List Port) (c : Vector Byte 16) (code : Byte)
    (h : s.takeDue p rest c code) (isCode : Byte → Bool) (hc : isCode code = true)
    (body : Port → Vector Byte 16 → State → State) : s.take isCode body = body p c { s with cmdQueue := rest } := by
  obtain ⟨h1, h2, h3, h4, h5⟩ := h
  unfold State.take
  rw [h3]
  simp [h1, h2, h4, h5, hc]

/-- Every outcome of a take: nothing, or its body. -/
theorem State.take_cases (s : State) (isCode : Byte → Bool) (body : Port → Vector Byte 16 → State → State) :
    s.take isCode body = s ∨
      ∃ p rest c, s.takeDue p rest c (byteAt c 0) ∧ isCode (byteAt c 0) = true ∧
        s.take isCode body = body p c { s with cmdQueue := rest } := by
  unfold State.take
  by_cases h0 : s.rstLow = true ∨ s.walk.isSome = true
  · left; simp [h0]
  · rw [if_neg (by simpa using h0)]
    push Not at h0
    cases hq : s.cmdQueue with
    | nil => left; rfl
    | cons p rest =>
      cases hcap : (s.slot p).captured with
      | none => left; simp [hcap]
      | some c =>
        by_cases hi : isCode (byteAt c 0) = true
        · right
          refine ⟨p, rest, c, ⟨by simpa using h0.1, by simpa using h0.2, hq, hcap, rfl⟩, hi, ?_⟩
          simp [hcap, hi]
        · left; simp [hcap, hi]

/-! ## Visits -/

theorem State.visitActive_frame (s : State) (k : Slot) (r : Reservation) :
    ∃ a b c d e f, s.visitActive k r = { s with
      table := a, committed := b, preemptTotal := c, notices := d, ports := e, tenure := f } := by
  simp only [State.visitActive]
  set r1 := applyPending (if s.shortfallMet (s.handleAt k) r = true then { r with shortfall := min 255 (r.shortfall + 1) } else r)
  set s1 := (s.replaceContribution r r1).setLive k (countLease { r1 with credit := r1.share }).1 with hs1
  obtain ⟨n1, e1⟩ := s1.placeIf_frame r.owner (countLease { r1 with credit := r1.share }).2 (.handle (s.handleAt k))
  obtain ⟨n2, e2⟩ := (s1.placeIf r.owner (countLease { r1 with credit := r1.share }).2 (.handle (s.handleAt k))).placeIf_frame
    r.owner (if s.shortfallMet (s.handleAt k) r = true then some .shortfall else none) (.handle (s.handleAt k))
  set s2 := (s1.placeIf r.owner (countLease { r1 with credit := r1.share }).2 (.handle (s.handleAt k))).placeIf
    r.owner (if s.shortfallMet (s.handleAt k) r = true then some .shortfall else none) (.handle (s.handleAt k))
  have h2 : ∃ n, s2 = { s1 with notices := n } := ⟨n2, by rw [e2, e1]⟩
  obtain ⟨n, h2⟩ := h2
  split
  · obtain ⟨a, b, e3⟩ := s2.withdrawDrawing_frame (s.handleAt k) r.cls
    obtain ⟨c, d, e4⟩ := (s2.withdrawDrawing (s.handleAt k) r.cls).testYield_frame
    exact ⟨s1.table, s1.committed, s1.preemptTotal, n, c, d, by rw [e4, e3, h2, hs1]; rfl⟩
  · obtain ⟨b, e3⟩ := s2.refillStanding_frame (s.handleAt k) r.cls
    obtain ⟨c, d, e4⟩ := (s2.refillStanding (s.handleAt k) r.cls).testYield_frame
    exact ⟨s1.table, s1.committed, s1.preemptTotal, n, c, d, by rw [e4, e3, h2, hs1]; rfl⟩

theorem State.visitSlot_frame (s : State) (k : Slot) :
    ∃ a b c d e f g h, s.visitSlot k = { s with
      table := a, committed := b, preemptTotal := c, notices := d, ports := e, tenure := f, bindings := g, waiting := h } := by
  unfold State.visitSlot
  split
  · exact ⟨s.table, s.committed, s.preemptTotal, s.notices, s.ports, s.tenure, s.bindings, s.waiting, rfl⟩
  · rename_i r _
    split
    · obtain ⟨a, b, c, d, e, f, h⟩ := s.visitActive_frame k r
      exact ⟨a, b, c, d, e, f, s.bindings, s.waiting, h⟩
    · obtain ⟨a, b, h⟩ := State.testYield_frame
        ((s.replaceContribution r (applyPending r)).setLive k { applyPending r with credit := 0 })
      exact ⟨_, _, _, s.notices, a, b, s.bindings, s.waiting, h⟩
    · obtain ⟨a, b, c, d, e, f, g, h1⟩ := s.retireRecord_frame k
      obtain ⟨n, h2⟩ := (s.retireRecord k).place_frame r.owner .retired (.handle (s.handleAt k))
      obtain ⟨x, y, h3⟩ := ((s.retireRecord k).place r.owner .retired (.handle (s.handleAt k))).testYield_frame
      exact ⟨a, b, c, n, x, y, d, e, by unfold State.visitLapsed; rw [h3, h2, h1]⟩

theorem State.sweepStep_frame (s : State) :
    ∃ a b c d e f g h i, s.sweepStep = { s with
      table := a, committed := b, preemptTotal := c, notices := d, ports := e, tenure := f, bindings := g, waiting := h
      sweep := i } := by
  unfold State.sweepStep
  split
  · exact ⟨s.table, s.committed, s.preemptTotal, s.notices, s.ports, s.tenure, s.bindings, s.waiting, s.sweep, rfl⟩
  · rename_i k _
    obtain ⟨a, b, c, d, e, f, g, h, eq⟩ := s.visitSlot_frame k
    exact ⟨a, b, c, d, e, f, g, h, nextSlot k, by rw [eq]⟩

/-- What a walk visit touches: what a retirement touches, the notices, the issuer's slot and the walk itself. -/
theorem State.walkStep_frame (s : State) :
    ∃ a b c d e f g h i j, s.walkStep = { s with
      table := a, committed := b, preemptTotal := c, notices := d, ports := e, tenure := f, bindings := g, waiting := h
      slots := i, walk := j } := by
  unfold State.walkStep
  split
  · exact ⟨s.table, s.committed, s.preemptTotal, s.notices, s.ports, s.tenure, s.bindings, s.waiting, s.slots, s.walk, rfl⟩
  · rename_i w _
    split
    · rename_i listed start found _
      simp only [State.listStep]
      split
      · exact ⟨s.table, s.committed, s.preemptTotal, s.notices, s.ports, s.tenure, s.bindings, s.waiting, s.slots, _, rfl⟩
      · obtain ⟨n, h⟩ := State.complete_frame { s with walk := none } w.issuer .done
          (found ++ s.listNote listed start w.next).length (listBytes (found ++ s.listNote listed start w.next))
        exact ⟨s.table, s.committed, s.preemptTotal, n, s.ports, s.tenure, s.bindings, s.waiting, _, none, by rw [h]⟩
    · rename_i retired discarded _
      simp only [State.resetTableStep]
      obtain ⟨a, b, c, d, e, f, g, h1⟩ := s.retire_frame w.next
      split
      · exact ⟨a, b, c, s.notices, f, g, d, e, s.slots, _, by rw [h1]⟩
      · obtain ⟨n, h2⟩ := (s.retire w.next).placeTableReset_frame
        split
        · exact ⟨a, b, c, n, f, g, d, e, s.slots, none, by rw [h2, h1]⟩
        · obtain ⟨m, h3⟩ := State.complete_frame { (s.retire w.next).placeTableReset with walk := none } w.issuer .done 1
            [lowByte (if (s.liveAt w.next).isSome = true then retired + 1 else retired)]
          exact ⟨a, b, c, m, f, g, d, e, _, none, by rw [h3, h2, h1]⟩

end Sys2Proof.Machine
end

