-- ==== Sys2Proof/Laws/Exec.lean ====
section
/-! SUPPORT. Every command answers a next state, and no command touches the queue of commands that wait; what a take can
touch; and the order in which the last visits of a sweep and the takes before them come. -/

namespace Sys2Proof.Machine

@[simp] theorem State.testYield_pending (s : State) : s.testYield.pending = s.pending := by
  obtain ⟨a, b, h⟩ := s.testYield_frame; rw [h]

@[simp] theorem State.withdrawDrawing_pending (s : State) (h : Handle) (cls : ResClass) :
    (s.withdrawDrawing h cls).pending = s.pending := by
  obtain ⟨a, b, e⟩ := s.withdrawDrawing_frame h cls; rw [e]

@[simp] theorem State.retireRecord_pending (s : State) (k : Slot) : (s.retireRecord k).pending = s.pending := by
  obtain ⟨a, b, c, d, e, f, g, h⟩ := s.retireRecord_frame k; rw [h]

@[simp] theorem State.retire_pending (s : State) (k : Slot) : (s.retire k).pending = s.pending := by
  simp [State.retire]

@[simp] theorem State.place_pending (s : State) (p : Port) (k : NoticeKind) (x : Subject) :
    (s.place p k x).pending = s.pending := by
  obtain ⟨a, h⟩ := s.place_frame p k x; rw [h]

@[simp] theorem State.placeIf_pending (s : State) (p : Port) (k : Option NoticeKind) (x : Subject) :
    (s.placeIf p k x).pending = s.pending := by
  obtain ⟨a, h⟩ := s.placeIf_frame p k x; rw [h]

@[simp] theorem State.complete_pending (s : State) (p : Port) (x : ReplyStatus) (n : Nat) (bs : List Byte) :
    (s.complete p x n bs).pending = s.pending := by
  obtain ⟨a, h⟩ := s.complete_frame p x n bs; rw [h]

@[simp] theorem State.refuse_pending (s : State) (p : Port) (x : ReplyStatus) : (s.refuse p x).pending = s.pending := by
  simp [State.refuse]

@[simp] theorem State.makeEntry_pending (s : State) (p : Port) : (s.makeEntry p).pending = s.pending := by
  obtain ⟨a, b, h⟩ := s.makeEntry_frame p; rw [h]

@[simp] theorem State.requestFalls_pending (s : State) (p : Port) : (s.requestFalls p).pending = s.pending := by
  obtain ⟨a, b, c, d, h⟩ := s.requestFalls_frame p; rw [h]

@[simp] theorem State.readyEvent_pending (s : State) (d : Byte) : (s.readyEvent d).pending = s.pending := by
  obtain ⟨a, b, c, e, f, g, h, i, j, k, l, eq⟩ := s.readyEvent_frame d; rw [eq]

@[simp] theorem State.readyOf_pending (s : State) (is : WindowAccess → Bool) (d : Byte) :
    (s.readyOf is d).pending = s.pending := by
  unfold State.readyOf
  split
  · split <;> simp
  · simp

@[simp] theorem State.sweepStep_pending (s : State) : s.sweepStep.pending = s.pending := by
  obtain ⟨a, b, c, d, e, f, g, h, i, eq⟩ := s.sweepStep_frame; rw [eq]

@[simp] theorem State.walkStep_pending (s : State) : s.walkStep.pending = s.pending := by
  obtain ⟨a, b, c, d, e, f, g, h, i, j, eq⟩ := s.walkStep_frame; rw [eq]

@[simp] theorem State.overdueWalk_pending (s : State) (n fuel : Nat) : (s.overdueWalk n fuel).pending = s.pending := by
  induction fuel generalizing s with
  | zero => rfl
  | succ k ih =>
    unfold State.overdueWalk
    split
    · rw [ih]; simp
    · rfl

@[simp] theorem State.expireGrace_pending (s : State) (p : Port) : (s.expireGrace p).pending = s.pending := by
  unfold State.expireGrace State.forceWithdrawal State.fencePort State.endTenure
  split <;> simp

@[simp] theorem State.expireDrain_pending (s : State) (p : Port) : (s.expireDrain p).pending = s.pending := by
  simp [State.expireDrain, State.endTenure]

@[simp] theorem State.idleTick_pending (s : State) : s.idleTick.pending = s.pending := by
  unfold State.idleTick
  split
  · rfl
  · split <;> simp

@[simp] theorem State.tenureTick_pending (s : State) : s.tenureTick.pending = s.pending := by
  unfold State.tenureTick
  split
  · simp
  · simp
  · rfl
  · split <;> simp

@[simp] theorem State.frameTick_pending (s : State) : s.frameTick.pending = s.pending := by
  unfold State.frameTick
  split <;> rfl

@[simp] theorem State.detachTenure_pending (s : State) (p : Port) : (s.detachTenure p).pending = s.pending := by
  unfold State.detachTenure
  split
  · rfl
  · split <;> rfl

@[simp] theorem State.retireOwned_pending (s : State) (p : Port) : (s.retireOwned p).pending = s.pending := by
  obtain ⟨a, b, c, d, e, f, g, h⟩ := s.retireOwned_frame p; rw [h]

@[simp] theorem State.detachCommands_pending (s : State) (p : Port) : (s.detachCommands p).pending = s.pending := rfl

@[simp] theorem State.unbindAll_pending (s : State) (p : Port) : (s.unbindAll p).pending = s.pending := rfl

@[simp] theorem State.detachNotices_pending (s : State) (p : Port) : (s.detachNotices p).pending = s.pending := by
  simp only [State.detachNotices]
  split <;> simp

@[simp] theorem State.detachPort_pending (s : State) (p : Port) : (s.detachPort p).pending = s.pending := by
  simp [State.detachPort]

/-! ## What a take can touch -/

/-- The fields that no take touches, but for the walk that LIST and RESET_TABLE begin. -/
def State.kept (s : State) :=
  (s.rstLow, s.pres, s.req, s.sel, s.driven, s.supervisor, s.windowBase, s.config, s.tickCount, s.frameNumber, s.sweep,
    s.snapshots, s.pendingOrder, s.cmdQueue, s.walk, s.late, s.latches, s.pending)

@[simp] theorem State.setRecord_kept (s : State) (k : Slot) (r : TableRecord) : (s.setRecord k r).kept = s.kept := rfl
@[simp] theorem State.setLive_kept (s : State) (k : Slot) (r : Reservation) : (s.setLive k r).kept = s.kept := rfl
@[simp] theorem State.setPortState_kept (s : State) (p : Port) (x : PortState) : (s.setPortState p x).kept = s.kept := rfl
@[simp] theorem State.setBinding_kept (s : State) (p : Port) (c : SelCode) (h : Option Handle) :
    (s.setBinding p c h).kept = s.kept := rfl
@[simp] theorem State.replaceContribution_kept (s : State) (a b : Reservation) :
    (s.replaceContribution a b).kept = s.kept := rfl
@[simp] theorem State.writeOpening_kept (s : State) (k : Slot) (r : Reservation) : (s.writeOpening k r).kept = s.kept := rfl
@[simp] theorem State.setPointers_kept (s : State) (v : Vector Port 6) : ({ s with pointers := v } : State).kept = s.kept := rfl
@[simp] theorem State.setPending_kept (s : State) (f : Option FrameConfig) :
    ({ s with pendingConfig := f } : State).kept = s.kept := rfl

@[simp] theorem State.testYield_kept (s : State) : s.testYield.kept = s.kept := by
  obtain ⟨a, b, h⟩ := s.testYield_frame; rw [h]; rfl

@[simp] theorem State.withdrawDrawing_kept (s : State) (h : Handle) (cls : ResClass) :
    (s.withdrawDrawing h cls).kept = s.kept := by
  obtain ⟨a, b, e⟩ := s.withdrawDrawing_frame h cls; rw [e]; rfl

@[simp] theorem State.retire_kept (s : State) (k : Slot) : (s.retire k).kept = s.kept := by
  obtain ⟨a, b, c, d, e, f, g, h⟩ := s.retire_frame k; rw [h]; rfl

@[simp] theorem State.place_kept (s : State) (p : Port) (k : NoticeKind) (x : Subject) : (s.place p k x).kept = s.kept := by
  obtain ⟨a, h⟩ := s.place_frame p k x; rw [h]; rfl

@[simp] theorem State.placeIf_kept (s : State) (p : Port) (k : Option NoticeKind) (x : Subject) :
    (s.placeIf p k x).kept = s.kept := by
  obtain ⟨a, h⟩ := s.placeIf_frame p k x; rw [h]; rfl

@[simp] theorem State.complete_kept (s : State) (p : Port) (x : ReplyStatus) (n : Nat) (bs : List Byte) :
    (s.complete p x n bs).kept = s.kept := by
  obtain ⟨a, h⟩ := s.complete_frame p x n bs; rw [h]; rfl

@[simp] theorem State.refuse_kept (s : State) (p : Port) (x : ReplyStatus) : (s.refuse p x).kept = s.kept := by
  simp [State.refuse]

@[simp] theorem State.makeEntry_kept (s : State) (p : Port) : (s.makeEntry p).kept = s.kept := by
  obtain ⟨a, b, h⟩ := s.makeEntry_frame p; rw [h]; rfl

theorem openTake_kept (p : Port) (c : Vector Byte 16) (s : State) : (openTake p c s).kept = s.kept := by
  unfold openTake
  split
  · simp
  · split <;> simp [State.admitOpening]

theorem modifyTake_kept (p : Port) (c : Vector Byte 16) (s : State) : (modifyTake p c s).kept = s.kept := by
  have happ : ∀ ch h r, (s.applyChanges ch h r).kept = s.kept := by
    intro ch h r
    simp only [State.applyChanges]
    split <;> simp
  simp only [modifyTake]
  split
  · simp
  · split
    · simp
    · split
      · simp
      · split
        · simp
        · split
          · simp
          · split <;> simp [happ]

theorem renewTake_kept (p : Port) (c : Vector Byte 16) (s : State) : (renewTake p c s).kept = s.kept := by
  simp only [renewTake]
  split
  · simp
  · split <;> simp

theorem closeTake_kept (p : Port) (c : Vector Byte 16) (s : State) : (closeTake p c s).kept = s.kept := by
  simp only [closeTake]
  split
  · simp
  · split <;> simp

theorem bindTake_kept (p : Port) (c : Vector Byte 16) (s : State) : (bindTake p c s).kept = s.kept := by
  simp only [bindTake]
  split
  · simp
  · split
    · simp
    · split <;> simp

theorem unbindTake_kept (p : Port) (c : Vector Byte 16) (s : State) : (unbindTake p c s).kept = s.kept := by
  simp only [unbindTake]
  split
  · simp
  · split <;> simp

theorem queryTake_kept (p : Port) (c : Vector Byte 16) (s : State) : (queryTake p c s).kept = s.kept := by
  simp only [queryTake]
  split
  · simp
  · split <;> simp

theorem openForTake_kept (p : Port) (c : Vector Byte 16) (s : State) : (openForTake p c s).kept = s.kept := by
  unfold openForTake
  split
  · split
    · simp
    · split <;> simp [State.admitOpening]
  · simp

theorem revokeTake_kept (p : Port) (c : Vector Byte 16) (s : State) : (revokeTake p c s).kept = s.kept := by
  simp only [revokeTake]
  split <;> simp

theorem suspendTake_kept (p : Port) (c : Vector Byte 16) (s : State) : (suspendTake p c s).kept = s.kept := by
  simp only [suspendTake]
  split
  · simp
  · split <;> simp

theorem resumeTake_kept (p : Port) (c : Vector Byte 16) (s : State) : (resumeTake p c s).kept = s.kept := by
  simp only [resumeTake]
  split
  · simp
  · split <;> simp

theorem demoteTake_kept (p : Port) (c : Vector Byte 16) (s : State) : (demoteTake p c s).kept = s.kept := by
  unfold demoteTake
  split <;> simp

@[simp] theorem State.clearFence_kept (s : State) (q : Port) : (s.clearFence q).kept = s.kept := by
  have h : ∀ l : List Slot, ∀ s : State, (l.foldl (fun s k => s.clearFenceAt q k) s).kept = s.kept := by
    intro l
    induction l with
    | nil => intro s; rfl
    | cons k l ih =>
      intro s
      rw [List.foldl_cons, ih]
      unfold State.clearFenceAt
      split
      · rfl
      · split <;> simp
  simp only [State.clearFence]
  split <;> simp [h]

theorem clearFenceTake_kept (p : Port) (c : Vector Byte 16) (s : State) :
    (clearFenceTake p c s).kept = s.kept := by
  unfold clearFenceTake
  split
  · simp
  · split <;> simp

theorem setFrameTake_kept (p : Port) (c : Vector Byte 16) (s : State) : (setFrameTake p c s).kept = s.kept := by
  simp only [setFrameTake]
  split
  · simp
  · split <;> simp

theorem queryPortTake_kept (p : Port) (c : Vector Byte 16) (s : State) :
    (queryPortTake p c s).kept = s.kept := by
  unfold queryPortTake
  split <;> simp

/-- What a take leaves: everything kept, or everything but a walk begun at S0. -/
def State.keptOrBegun (s t : State) : Prop :=
  t.kept = s.kept ∨ ∃ w : Walk, w.next = 0 ∧ t.kept = ({ s with walk := some w } : State).kept

theorem listTake_keptOrBegun (p : Port) (c : Vector Byte 16) (s : State) : s.keptOrBegun (listTake p c s) := by
  unfold listTake
  split
  · exact Or.inr ⟨_, rfl, rfl⟩
  · exact Or.inl (by simp)

theorem supervisorOnly_keptOrBegun (body : Port → Vector Byte 16 → State → State)
    (h : ∀ p c (s : State), s.keptOrBegun (body p c s)) (p : Port) (c : Vector Byte 16) (s : State) :
    s.keptOrBegun (supervisorOnly body p c s) := by
  unfold supervisorOnly
  split
  · exact h p c s
  · exact Or.inl (by simp)

/-- A take of any code touches nothing but ports, records, bindings, totals, the pending configuration, entries, pointers,
the tenure, slots and notices, and begins a walk at S0 or leaves it. -/
theorem takeOf_keptOrBegun (b : Byte) (p : Port) (c : Vector Byte 16) (s : State) : s.keptOrBegun (takeOf b p c s) := by
  have sup : ∀ body : Port → Vector Byte 16 → State → State, (∀ p c s, (body p c s).kept = s.kept) →
      s.keptOrBegun (supervisorOnly body p c s) :=
    fun body h => supervisorOnly_keptOrBegun body (fun p c s => Or.inl (h p c s)) p c s
  unfold takeOf
  split
  · exact Or.inl (openTake_kept p c s)
  · exact Or.inl (modifyTake_kept p c s)
  · exact Or.inl (renewTake_kept p c s)
  · exact Or.inl (closeTake_kept p c s)
  · exact Or.inl (bindTake_kept p c s)
  · exact Or.inl (unbindTake_kept p c s)
  · exact Or.inl (queryTake_kept p c s)
  · exact listTake_keptOrBegun p c s
  · exact sup _ openForTake_kept
  · exact sup _ revokeTake_kept
  · exact sup _ suspendTake_kept
  · exact sup _ resumeTake_kept
  · exact sup _ demoteTake_kept
  · exact sup _ clearFenceTake_kept
  · exact sup _ setFrameTake_kept
  · exact supervisorOnly_keptOrBegun resetTableTake (fun _ _ _ => Or.inr ⟨_, rfl, rfl⟩) p c s
  · exact sup _ queryPortTake_kept
  · exact Or.inl (by simp [badTake])

theorem State.keptOrBegun.pending {s t : State} (h : s.keptOrBegun t) : t.pending = s.pending := by
  rcases h with h | ⟨w, _, h⟩ <;> simp only [State.kept, Prod.mk.injEq] at h <;> exact h.2.2.2.2.2.2.2.2.2.2.2.2.2.2.2.2.2

theorem State.keptOrBegun.sweep {s t : State} (h : s.keptOrBegun t) : t.sweep = s.sweep := by
  rcases h with h | ⟨w, _, h⟩ <;> simp only [State.kept, Prod.mk.injEq] at h <;> exact h.2.2.2.2.2.2.2.2.2.2.1

theorem State.take_pending (s : State) (isCode : Byte → Bool) (body : Port → Vector Byte 16 → State → State)
    (h : ∀ p c (s : State), s.keptOrBegun (body p c s)) : (s.take isCode body).pending = s.pending := by
  rcases s.take_cases isCode body with e | ⟨p, rest, c, _, _, e⟩
  · rw [e]
  · rw [e, (h _ _ _).pending]

/-- An owner command's take keeps the waiting commands if its body touches only what takes touch. -/
theorem State.take_pending_of_kept (s : State) (isCode : Byte → Bool) (body : Port → Vector Byte 16 → State → State)
    (h : ∀ p c s, (body p c s).kept = s.kept) : (s.take isCode body).pending = s.pending :=
  s.take_pending _ _ fun p c s => Or.inl (h p c s)

/-- A supervisor command's take likewise. -/
theorem State.takeSupervisor_pending (s : State) (code : Byte) (body : Port → Vector Byte 16 → State → State)
    (h : ∀ p c (s : State), s.keptOrBegun (body p c s)) : (s.takeSupervisor code body).pending = s.pending :=
  s.take_pending _ _ fun p c s => supervisorOnly_keptOrBegun body h p c s

theorem State.takeSupervisor_pending_of_kept (s : State) (code : Byte) (body : Port → Vector Byte 16 → State → State)
    (h : ∀ p c s, (body p c s).kept = s.kept) : (s.takeSupervisor code body).pending = s.pending :=
  s.takeSupervisor_pending _ _ fun p c s => Or.inl (h p c s)

/-! ## The Command Unit's events before a visit -/

@[simp] theorem State.commandStep_pending (s : State) : s.commandStep.pending = s.pending := by
  unfold State.commandStep
  split
  · simp
  · exact s.take_pending _ _ fun p c s => takeOf_keptOrBegun _ p c s

@[simp] theorem State.takeAhead_pending (s : State) (k : Slot) (fuel : Nat) :
    (s.takeAhead k fuel).pending = s.pending := by
  induction fuel generalizing s with
  | zero => rfl
  | succ n ih =>
    unfold State.takeAhead
    split
    · rw [ih]; simp
    · rfl

@[simp] theorem State.sweepRest_pending (s : State) (fuel : Nat) : (s.sweepRest fuel).pending = s.pending := by
  induction fuel generalizing s with
  | zero => rfl
  | succ n ih =>
    unfold State.sweepRest
    split
    · rfl
    · rw [ih]; simp

/-- A walk's visit keeps the queue and the sweep, and leaves fewer visits to take. -/
theorem State.walkStep_work (s : State) (w : Walk) (h : s.walk = some w) :
    s.walkStep.cmdQueue = s.cmdQueue ∧ s.walkStep.sweep = s.sweep ∧ s.walkStep.commandWork < s.commandWork := by
  obtain ⟨a, b, c, d, e, f, g, i, j, k, eq⟩ := s.walkStep_frame
  have hq : s.walkStep.cmdQueue = s.cmdQueue := by rw [eq]
  refine ⟨hq, by rw [eq], ?_⟩
  have hn : s.walkStep.walk = none ∨ ∃ w', s.walkStep.walk = some w' ∧ w'.next.val = w.next.val + 1 := by
    have val : ∀ k j, nextSlot k = some j → j.val = k.val + 1 := by
      intro k j h; simp only [nextSlot] at h; split at h <;> simp at h; rw [← h]
    simp only [State.walkStep, h]
    split
    · simp only [State.listStep]
      split
      · rename_i n hn; exact Or.inr ⟨_, rfl, val _ _ hn⟩
      · refine Or.inl ?_
        obtain ⟨x, hx⟩ := State.complete_frame { s with walk := none } w.issuer .done _ _
        rw [hx]
    · simp only [State.resetTableStep]
      split
      · rename_i n hn; exact Or.inr ⟨_, rfl, val _ _ hn⟩
      · split
        · exact Or.inl rfl
        · refine Or.inl ?_
          obtain ⟨x, hx⟩ := State.complete_frame { (s.retire w.next).placeTableReset with walk := none } w.issuer .done 1 _
          rw [hx]
  have := w.next.isLt
  rcases hn with hn | ⟨w', hn, hw⟩ <;> simp only [State.commandWork, hq, hn, h] <;> omega

/-- An event of the Command Unit keeps the sweep, and takes work off it unless nothing there can be taken. -/
theorem State.commandStep_work (s : State) :
    s.commandStep.sweep = s.sweep ∧ (s.commandStep = s ∨ s.commandStep.commandWork < s.commandWork) := by
  rcases hw : s.walk with _ | w
  · have e : s.commandStep = s.takeFront := by simp [State.commandStep, hw]
    rw [e]
    unfold State.takeFront
    rcases s.take_cases (fun _ => true) (fun p c => takeOf (byteAt c 0) p c) with h | ⟨p, rest, c, due, _, h⟩
    · rw [h]; exact ⟨rfl, Or.inl rfl⟩
    · rw [h]
      have k := takeOf_keptOrBegun (byteAt c 0) p c { s with cmdQueue := rest }
      refine ⟨k.sweep, Or.inr ?_⟩
      have hq : s.cmdQueue.length = rest.length + 1 := by rw [due.2.2.1]; rfl
      generalize takeOf (byteAt c 0) p c { s with cmdQueue := rest } = t at k ⊢
      have ht : t.cmdQueue = rest ∧ (t.walk = none ∨ ∃ w : Walk, t.walk = some w) := by
        rcases k with k | ⟨w, -, k⟩ <;> simp only [State.kept, Prod.mk.injEq] at k <;>
          obtain ⟨-, -, -, -, -, -, -, -, -, -, -, -, -, k1, k2, -⟩ := k
        · exact ⟨k1, Or.inl (k2.trans hw)⟩
        · exact ⟨k1, Or.inr ⟨w, k2⟩⟩
      rcases ht with ⟨h1, h2 | ⟨w, h2⟩⟩ <;> simp only [State.commandWork, h1, h2, hw, hq] <;> omega
  · have e : s.commandStep = s.walkStep := by simp [State.commandStep, hw]
    rw [e]
    exact ⟨(s.walkStep_work w hw).2.1, Or.inr (s.walkStep_work w hw).2.2⟩

theorem State.takeAhead_of_not_waiting (s : State) (k : Slot) (fuel : Nat) (h : s.renewWaits k = false) :
    s.takeAhead k fuel = s := by
  cases fuel <;> simp [State.takeAhead, h]

theorem State.takeAhead_of_stuck (s : State) (k : Slot) (fuel : Nat) (h : s.commandStep = s) : s.takeAhead k fuel = s := by
  induction fuel with
  | zero => rfl
  | succ n ih => simp [State.takeAhead, h, ih]

theorem State.renewWaits_of_no_work (s : State) (k : Slot) (h : s.commandWork = 0) : s.renewWaits k = false := by
  have : s.cmdQueue = [] := by
    simp only [State.commandWork] at h
    exact List.eq_nil_of_length_eq_zero (by omega)
  unfold State.renewWaits
  cases s.liveAt k <;> simp [this]

/-- More fuel than the Command Unit has work changes nothing. -/
theorem State.takeAhead_fuel (s : State) (k : Slot) (m n : Nat) (hm : s.commandWork ≤ m) (hn : s.commandWork ≤ n) :
    s.takeAhead k m = s.takeAhead k n := by
  induction m generalizing s n with
  | zero =>
    have h := s.renewWaits_of_no_work k (by omega)
    rw [s.takeAhead_of_not_waiting k _ h, s.takeAhead_of_not_waiting k _ h]
  | succ m ih =>
    rcases n with _ | n
    · have h := s.renewWaits_of_no_work k (by omega)
      rw [s.takeAhead_of_not_waiting k _ h, s.takeAhead_of_not_waiting k _ h]
    · rcases s.commandStep_work.2 with h | h
      · rw [s.takeAhead_of_stuck k _ h, s.takeAhead_of_stuck k _ h]
      · simp only [State.takeAhead]
        split
        · exact ih _ _ (by omega) (by omega)
        · rfl

@[simp] theorem State.takeAhead_sweep (s : State) (k : Slot) (fuel : Nat) : (s.takeAhead k fuel).sweep = s.sweep := by
  induction fuel generalizing s with
  | zero => rfl
  | succ n ih =>
    unfold State.takeAhead
    split
    · rw [ih, s.commandStep_work.1]
    · rfl

/-- The visits a sweep has still to take. -/
def State.visitsLeft (s : State) : Nat :=
  match s.sweep with
  | none => 0
  | some k => 32 - k.val

theorem State.visitsLeft_le (s : State) : s.visitsLeft ≤ 32 := by
  unfold State.visitsLeft
  split <;> omega

theorem State.sweepStep_left (s : State) (h : s.sweep ≠ none) : s.sweepStep.visitsLeft < s.visitsLeft := by
  obtain ⟨k, hk⟩ := Option.ne_none_iff_exists'.1 h
  have := k.isLt
  simp only [State.visitsLeft, State.sweepStep, hk, nextSlot]
  split <;> rename_i h1 <;> split at h1 <;> simp at h1
  · omega
  · subst h1; simp; omega

/-- More fuel than a sweep has visits left changes nothing. -/
theorem State.sweepRest_fuel (s : State) (m n : Nat) (hm : s.visitsLeft ≤ m) (hn : s.visitsLeft ≤ n) :
    s.sweepRest m = s.sweepRest n := by
  have done : ∀ n, s.visitsLeft = 0 → s.sweepRest n = s := by
    intro n h
    have : s.sweep = none := by
      rcases hs : s.sweep with _ | k
      · rfl
      · simp only [State.visitsLeft, hs] at h; omega
    cases n <;> simp [State.sweepRest, this]
  induction m generalizing s n with
  | zero => rw [done _ (by omega), done _ (by omega)]
  | succ m ih =>
    rcases n with _ | n
    · rw [done _ (by omega), done _ (by omega)]
    · rcases hs : s.sweep with _ | k
      · simp [State.sweepRest, hs]
      · simp only [State.sweepRest, hs]
        have h1 : (s.takeAhead k s.commandWork).sweep ≠ none := by simp [hs]
        have h2 := State.sweepStep_left _ h1
        have h3 : (s.takeAhead k s.commandWork).visitsLeft = s.visitsLeft := by simp [State.visitsLeft]
        refine ih _ _ (by omega) (by omega) fun n h => ?_
        have : (s.takeAhead k s.commandWork).sweepStep.sweep = none := by
          rcases hs : (s.takeAhead k s.commandWork).sweepStep.sweep with _ | k'
          · rfl
          · simp only [State.visitsLeft, hs] at h; omega
        cases n <;> simp [State.sweepRest, this]

/-- A sweep with no visit left is at its end. -/
theorem State.finishSweep_of_no_sweep (s : State) (h : s.sweep = none) : s.finishSweep = s := by
  simp [State.finishSweep, State.sweepRest, h]

/-- A sweep whose next visit no RENEW comes before takes that visit next. -/
theorem State.finishSweep_sweepStep (s : State) (k : Slot) (h : s.sweep = some k) (hw : s.renewWaits k = false) :
    s.finishSweep = s.sweepStep.finishSweep := by
  have e : s.finishSweep = s.sweepStep.sweepRest 31 := by
    simp [State.finishSweep, State.sweepRest, h, s.takeAhead_of_not_waiting k _ hw]
  have := s.sweepStep_left (by simp [h])
  have := s.visitsLeft_le
  rw [e]
  exact s.sweepStep.sweepRest_fuel _ _ (by omega) (by omega)

/-- A sweep whose next visit a RENEW comes before takes an event of the Command Unit next. -/
theorem State.finishSweep_commandStep (s : State) (k : Slot) (h : s.sweep = some k) (hw : s.renewWaits k = true) :
    s.finishSweep = s.commandStep.finishSweep := by
  have e : s.takeAhead k s.commandWork = s.commandStep.takeAhead k s.commandStep.commandWork := by
    rcases s.commandStep_work.2 with h1 | h1
    · rw [h1]
    · rcases hn : s.commandWork with _ | n
      · omega
      · simp only [State.takeAhead, hw, if_true]
        exact State.takeAhead_fuel _ k _ _ (by omega) (by omega)
  simp [State.finishSweep, State.sweepRest, h, s.commandStep_work.1, e]

@[simp] theorem State.takeOverdue_pending (s : State) : s.takeOverdue.pending = s.pending := by
  have h : s.tickWalk.pending = s.pending := by
    unfold State.tickWalk
    split <;> simp
  unfold State.takeOverdue State.finishSweep
  split <;> simp [h]

/-! ## Every command -/

/-- Every command answers a next state, and leaves the queue of waiting commands as it is. -/
theorem exec_next (i : Instr) (s : State) : ∃ t, exec i s = .next t ∧ t.pending = s.pending := by
  cases i with
  | resetAssert => exact ⟨_, rfl, rfl⟩
  | resetRelease sup wb =>
    simp only [exec, execResetRelease]
    split <;> exact ⟨_, rfl, rfl⟩
  | attach p =>
    simp only [exec, execAttach]
    split
    · exact ⟨_, rfl, rfl⟩
    · split <;> exact ⟨_, rfl, rfl⟩
  | detach p =>
    simp only [exec, execDetach]
    split
    · exact ⟨_, rfl, rfl⟩
    · split
      · exact ⟨_, rfl, rfl⟩
      · exact ⟨_, rfl, by simp⟩
  | request p c =>
    simp only [exec, execRequest]
    split
    · exact ⟨_, rfl, rfl⟩
    · split
      · exact ⟨_, rfl, by simp⟩
      · exact ⟨_, rfl, rfl⟩
  | withdrawal p => exact ⟨_, rfl, by simp⟩
  | release p => exact ⟨_, rfl, by simp⟩
  | addressStrobe addr write =>
    simp only [exec, execAddressStrobe]
    split
    · exact ⟨_, rfl, rfl⟩
    · split <;> exact ⟨_, rfl, rfl⟩
  | ready d => exact ⟨_, rfl, by simp⟩
  | idleLimit =>
    simp only [exec, execIdleLimit]
    split
    · exact ⟨_, rfl, rfl⟩
    · exact ⟨_, rfl, by simp⟩
  | graceExpiry =>
    simp only [exec, execGraceExpiry]
    split <;> exact ⟨_, rfl, by simp⟩
  | drainExpiry =>
    simp only [exec, execDrainExpiry]
    split <;> exact ⟨_, rfl, by simp⟩
  | boundary =>
    simp only [exec, execBoundary]
    split
    · exact ⟨_, rfl, rfl⟩
    · exact ⟨_, rfl, by simp [State.boundaryEvent]⟩
  | sweepVisit =>
    simp only [exec, execSweepVisit]
    split
    · exact ⟨_, rfl, rfl⟩
    · exact ⟨_, rfl, by simp⟩
  | grantDecision =>
    simp only [exec, execGrantDecision]
    split
    · exact ⟨_, rfl, rfl⟩
    · split <;> exact ⟨_, rfl, rfl⟩
  | trigger v => exact ⟨_, rfl, by simp⟩
  | windowWrite v => exact ⟨_, rfl, by simp⟩
  | portControlWrite v => exact ⟨_, rfl, by simp⟩
  | noticeTake => exact ⟨_, rfl, by simp⟩
  | timeSnapshot => exact ⟨_, rfl, by simp⟩
  | takeBadCommand => exact ⟨_, rfl, s.take_pending_of_kept _ _ fun p c s => by simp [badTake]⟩
  | takeOpen => exact ⟨_, rfl, s.take_pending_of_kept _ _ openTake_kept⟩
  | takeModify => exact ⟨_, rfl, s.take_pending_of_kept _ _ modifyTake_kept⟩
  | takeRenew => exact ⟨_, rfl, s.take_pending_of_kept _ _ renewTake_kept⟩
  | takeClose => exact ⟨_, rfl, s.take_pending_of_kept _ _ closeTake_kept⟩
  | takeBind => exact ⟨_, rfl, s.take_pending_of_kept _ _ bindTake_kept⟩
  | takeUnbind => exact ⟨_, rfl, s.take_pending_of_kept _ _ unbindTake_kept⟩
  | takeQuery => exact ⟨_, rfl, s.take_pending_of_kept _ _ queryTake_kept⟩
  | takeList => exact ⟨_, rfl, s.take_pending _ _ listTake_keptOrBegun⟩
  | listVisit =>
    simp only [exec, execListVisit]
    split
    · exact ⟨_, rfl, rfl⟩
    · exact ⟨_, rfl, by simp⟩
  | takeOpenFor => exact ⟨_, rfl, s.takeSupervisor_pending_of_kept _ _ openForTake_kept⟩
  | takeRevoke => exact ⟨_, rfl, s.takeSupervisor_pending_of_kept _ _ revokeTake_kept⟩
  | takeSuspend => exact ⟨_, rfl, s.takeSupervisor_pending_of_kept _ _ suspendTake_kept⟩
  | takeResume => exact ⟨_, rfl, s.takeSupervisor_pending_of_kept _ _ resumeTake_kept⟩
  | takeDemote => exact ⟨_, rfl, s.takeSupervisor_pending_of_kept _ _ demoteTake_kept⟩
  | takeClearFence => exact ⟨_, rfl, s.takeSupervisor_pending_of_kept _ _ clearFenceTake_kept⟩
  | takeSetFrame => exact ⟨_, rfl, s.takeSupervisor_pending_of_kept _ _ setFrameTake_kept⟩
  | takeResetTable => exact ⟨_, rfl, s.takeSupervisor_pending _ resetTableTake fun _ _ _ => Or.inr ⟨_, rfl, rfl⟩⟩
  | resetTableVisit =>
    simp only [exec, execResetTableVisit]
    split
    · exact ⟨_, rfl, rfl⟩
    · exact ⟨_, rfl, by simp⟩
  | takeQueryPort => exact ⟨_, rfl, s.takeSupervisor_pending_of_kept _ _ queryPortTake_kept⟩
  | tick =>
    simp only [exec, execTick]
    split
    · exact ⟨_, rfl, rfl⟩
    · exact ⟨_, rfl, by simp⟩

end Sys2Proof.Machine
end

