-- ==== Sys2Proof/Laws/Operands.lean ====
section
/-! SUPPORT. What the field readers, the byte encodings, the searches and the guards of the takes and readies answer, in
the terms the statements use. -/

namespace Sys2Proof.Machine

/-! ## Fields and bytes -/

theorem byteAt_bank {n : Nat} (v : Vector Byte n) (k : Fin n) : byteAt v k.val = bankGet v k := by
  simp [byteAt, bankGet, Vector.get_eq_getElem, List.getD, k.isLt]

/-- A number of sixteen bits from its two bytes (R197). -/
theorem lowByte_add_highByte (n : Nat) (h : n < 65536) : (lowByte n).toNat + 256 * (highByte n).toNat = n := by
  simp [lowByte, highByte]; omega

theorem field16_lt (c : Vector Byte 16) (i : Nat) : field16 c i < 65536 := by
  have := (byteAt c i).isLt
  have := (byteAt c (i + 1)).isLt
  simp [field16, field8]; omega

theorem portField_some (c : Vector Byte 16) (q : Port) (h : field8 c 0x0B = q.val) : portField c = some q := by
  simp [portField, h]

theorem portField_none (c : Vector Byte 16) (h : 8 ≤ field8 c 0x0B) : portField c = none := by
  simp [portField]; omega

theorem selField_some (c : Vector Byte 16) (q : SelCode) (h : field8 c 0x0B = q.val) : selField c = some q := by
  simp [selField, h]

theorem selField_none (c : Vector Byte 16) (h : 4 ≤ field8 c 0x0B) : selField c = none := by
  simp [selField]; omega

theorem startField_some (c : Vector Byte 16) (k : Slot) (h : field8 c 0x01 = k.val) : startField c = some k := by
  simp [startField, h]

theorem startField_none (c : Vector Byte 16) (h : 32 ≤ field8 c 0x01) : startField c = none := by
  simp [startField]; omega

/-! ## Searches -/

theorem nextSlot_some (k j : Slot) (h : j.val = k.val + 1) : nextSlot k = some j := by
  simp [nextSlot, ← h]

theorem nextSlot_none (k : Slot) (h : k.val = 31) : nextSlot k = none := by
  simp [nextSlot, h]

theorem State.lowestFree_some (s : State) (k : Slot) (h : s.isLowestFree k) : s.lowestFree = some k := by
  obtain ⟨h1, h2⟩ := h
  rw [State.lowestFree, List.find?_eq_some_iff_append]
  refine ⟨by simp [h1], ?_⟩
  have hm : k ∈ allSlots := by simp [allSlots]
  have hs : allSlots.Pairwise (· < ·) := by decide
  obtain ⟨a, b, hab⟩ := List.append_of_mem hm
  refine ⟨a, b, hab, fun j hj => ?_⟩
  rw [hab, List.pairwise_append] at hs
  simpa using Option.isSome_iff_ne_none.2 (h2 j (hs.2.2 j hj k (by simp)))

theorem State.lowestFree_none (s : State) (h : ∀ k, s.liveAt k ≠ none) : s.lowestFree = none := by
  simp [State.lowestFree, h]

theorem firstRanked_mem (es : List NoticeEntry) (m : NoticeEntry) (h : firstRanked es = some m) : m ∈ es := by
  induction es generalizing m with
  | nil => simp [firstRanked] at h
  | cons a l ih =>
    simp only [firstRanked] at h
    rcases h3 : firstRanked l with _ | y
    · simp [h3] at h; simp [h]
    · simp only [h3] at h
      split at h <;> simp at h
      · simp [h]
      · subst h; simp [ih y h3]

/-- The first-ranked entry stands after entries of higher rank and before entries of its own rank or a higher one. -/
theorem firstRanked_append (pre : List NoticeEntry) (e : NoticeEntry) (post : List NoticeEntry)
    (h1 : ∀ x ∈ pre, e.rank < x.rank) (h2 : ∀ x ∈ post, e.rank ≤ x.rank) :
    firstRanked (pre ++ e :: post) = some e := by
  induction pre with
  | nil =>
    simp only [List.nil_append, firstRanked]
    rcases h3 : firstRanked post with _ | y
    · rfl
    · simp [h2 y (firstRanked_mem _ _ h3)]
  | cons a l ih =>
    have hl := ih fun x hx => h1 x (by simp [hx])
    have ha := h1 a (by simp)
    simp only [List.cons_append, firstRanked, hl]
    rw [if_neg (by omega)]

/-! ## Guards -/

theorem State.takeSupervisor_of_due (s : State) (rest : List Port) (c : Vector Byte 16) (b : Byte)
    (h : s.takeDue s.supervisor rest c b) (body : Port → Vector Byte 16 → State → State) :
    s.takeSupervisor b body = body s.supervisor c { s with cmdQueue := rest } := by
  rw [State.takeSupervisor, s.take_due _ _ _ _ h _ (by simp)]; simp [supervisorOnly]

/-! ## The take that is due -/

theorem State.takeFront_of_due (s : State) (p : Port) (rest : List Port) (c : Vector Byte 16) (b : Byte)
    (h : s.takeDue p rest c b) : s.takeFront = takeOf b p c { s with cmdQueue := rest } := by
  rw [State.takeFront, s.take_due p rest c b h _ rfl, h.2.2.2.2]

/-- The Command Unit's next event is the take of the code, where that take is due. -/
theorem exec_take_of_due (s : State) (p : Port) (rest : List Port) (c : Vector Byte 16) (x : Instr × Byte)
    (hx : x ∈ commandTakes) (h : s.takeDue p rest c x.2) : exec x.1 s = .next s.takeFront := by
  rw [s.takeFront_of_due p rest c x.2 h]
  simp only [commandTakes, supervisorTakes, List.cons_append, List.nil_append, List.mem_cons, List.not_mem_nil, or_false] at hx
  rcases hx with rfl | rfl | rfl | rfl | rfl | rfl | rfl | rfl | rfl | rfl | rfl | rfl | rfl | rfl | rfl | rfl | rfl <;>
    exact congrArg Host.Outcome.next (s.take_due p rest c _ h (fun b => decide (b = _)) (decide_eq_true rfl) _)

/-- A code outside the table is BAD_COMMAND. -/
theorem takeOf_undefined (b : Byte) (hb : b ∉ commandTakes.map (·.2)) : takeOf b = badTake ∧ definedCode b = false := by
  refine ⟨?_, by revert b; decide⟩
  funext p c s
  unfold takeOf
  split <;> first
    | rfl
    | rename_i h
      have e : b = BitVec.ofNat 8 b.toNat := by simp
      rw [h] at e
      exact absurd (e ▸ by decide) hb

theorem exec_takeBadCommand_of_due (s : State) (p : Port) (rest : List Port) (c : Vector Byte 16) (b : Byte)
    (hb : b ∉ commandTakes.map (·.2)) (h : s.takeDue p rest c b) : exec .takeBadCommand s = .next s.takeFront := by
  obtain ⟨h1, h2⟩ := takeOf_undefined b hb
  rw [s.takeFront_of_due p rest c b h, h1]
  exact congrArg Host.Outcome.next (s.take_due p rest c b h (fun b => !definedCode b) (by simp [h2]) _)

/-! ## Readies -/

theorem State.readyOf_completes (s : State) (c : Cycle) (rest : List Strobe) (h : s.completes c rest)
    (is : WindowAccess → Bool) (d : Byte) :
    s.readyOf is d = if c.access.any is then s.readyEvent d else s := by
  simp [State.readyOf, h.2.1]

theorem State.readyEvent_completes (s : State) (c : Cycle) (rest : List Strobe) (h : s.completes c rest) (d : Byte) :
    s.readyEvent d = (State.charge { s.windowEffect c.access d with pendingOrder := rest } c.cost).finishDrain := by
  obtain ⟨h, h1, h2⟩ := h
  obtain ⟨t, ht⟩ := Option.ne_none_iff_exists'.1 h2
  simp [State.readyEvent, h, h1, ht]

end Sys2Proof.Machine
end

