-- ==== Sys2Proof/Laws/PerInstr.lean ====
section
/-! SUPPORT. What holds of every command as syntax, one lemma per constructor: no word spells it, since the table gives
bits to no row (log entry 6). -/

namespace Sys2Proof.Laws

/-- No word of any length spells the command. -/
def NoWord.Statement (i : Instr) : Prop := ∀ nbits w : Nat, decodeTableWord nbits w ≠ some i

theorem NoWord.resetAssert : NoWord.Statement .resetAssert := fun _ _ => by simp [decodeTableWord]
theorem NoWord.resetRelease (sup : Port) (wb : BitVec 4) : NoWord.Statement (.resetRelease sup wb) := fun _ _ => by simp [decodeTableWord]
theorem NoWord.attach (p : Port) : NoWord.Statement (.attach p) := fun _ _ => by simp [decodeTableWord]
theorem NoWord.detach (p : Port) : NoWord.Statement (.detach p) := fun _ _ => by simp [decodeTableWord]
theorem NoWord.request (p : Port) (sel : SelCode) : NoWord.Statement (.request p sel) := fun _ _ => by simp [decodeTableWord]
theorem NoWord.withdrawal (p : Port) : NoWord.Statement (.withdrawal p) := fun _ _ => by simp [decodeTableWord]
theorem NoWord.release (p : Port) : NoWord.Statement (.release p) := fun _ _ => by simp [decodeTableWord]
theorem NoWord.addressStrobe (addr : Address) (write : Bool) : NoWord.Statement (.addressStrobe addr write) := fun _ _ => by simp [decodeTableWord]
theorem NoWord.ready (data : Byte) : NoWord.Statement (.ready data) := fun _ _ => by simp [decodeTableWord]
theorem NoWord.idleLimit : NoWord.Statement .idleLimit := fun _ _ => by simp [decodeTableWord]
theorem NoWord.graceExpiry : NoWord.Statement .graceExpiry := fun _ _ => by simp [decodeTableWord]
theorem NoWord.drainExpiry : NoWord.Statement .drainExpiry := fun _ _ => by simp [decodeTableWord]
theorem NoWord.boundary : NoWord.Statement .boundary := fun _ _ => by simp [decodeTableWord]
theorem NoWord.sweepVisit : NoWord.Statement .sweepVisit := fun _ _ => by simp [decodeTableWord]
theorem NoWord.grantDecision : NoWord.Statement .grantDecision := fun _ _ => by simp [decodeTableWord]
theorem NoWord.trigger (value : Byte) : NoWord.Statement (.trigger value) := fun _ _ => by simp [decodeTableWord]
theorem NoWord.windowWrite (value : Byte) : NoWord.Statement (.windowWrite value) := fun _ _ => by simp [decodeTableWord]
theorem NoWord.portControlWrite (value : Byte) : NoWord.Statement (.portControlWrite value) := fun _ _ => by simp [decodeTableWord]
theorem NoWord.noticeTake : NoWord.Statement .noticeTake := fun _ _ => by simp [decodeTableWord]
theorem NoWord.timeSnapshot : NoWord.Statement .timeSnapshot := fun _ _ => by simp [decodeTableWord]
theorem NoWord.takeBadCommand : NoWord.Statement .takeBadCommand := fun _ _ => by simp [decodeTableWord]
theorem NoWord.takeOpen : NoWord.Statement .takeOpen := fun _ _ => by simp [decodeTableWord]
theorem NoWord.takeModify : NoWord.Statement .takeModify := fun _ _ => by simp [decodeTableWord]
theorem NoWord.takeRenew : NoWord.Statement .takeRenew := fun _ _ => by simp [decodeTableWord]
theorem NoWord.takeClose : NoWord.Statement .takeClose := fun _ _ => by simp [decodeTableWord]
theorem NoWord.takeBind : NoWord.Statement .takeBind := fun _ _ => by simp [decodeTableWord]
theorem NoWord.takeUnbind : NoWord.Statement .takeUnbind := fun _ _ => by simp [decodeTableWord]
theorem NoWord.takeQuery : NoWord.Statement .takeQuery := fun _ _ => by simp [decodeTableWord]
theorem NoWord.takeList : NoWord.Statement .takeList := fun _ _ => by simp [decodeTableWord]
theorem NoWord.listVisit : NoWord.Statement .listVisit := fun _ _ => by simp [decodeTableWord]
theorem NoWord.takeOpenFor : NoWord.Statement .takeOpenFor := fun _ _ => by simp [decodeTableWord]
theorem NoWord.takeRevoke : NoWord.Statement .takeRevoke := fun _ _ => by simp [decodeTableWord]
theorem NoWord.takeSuspend : NoWord.Statement .takeSuspend := fun _ _ => by simp [decodeTableWord]
theorem NoWord.takeResume : NoWord.Statement .takeResume := fun _ _ => by simp [decodeTableWord]
theorem NoWord.takeDemote : NoWord.Statement .takeDemote := fun _ _ => by simp [decodeTableWord]
theorem NoWord.takeClearFence : NoWord.Statement .takeClearFence := fun _ _ => by simp [decodeTableWord]
theorem NoWord.takeSetFrame : NoWord.Statement .takeSetFrame := fun _ _ => by simp [decodeTableWord]
theorem NoWord.takeResetTable : NoWord.Statement .takeResetTable := fun _ _ => by simp [decodeTableWord]
theorem NoWord.resetTableVisit : NoWord.Statement .resetTableVisit := fun _ _ => by simp [decodeTableWord]
theorem NoWord.takeQueryPort : NoWord.Statement .takeQueryPort := fun _ _ => by simp [decodeTableWord]
theorem NoWord.tick : NoWord.Statement .tick := fun _ _ => by simp [decodeTableWord]

end Sys2Proof.Laws
end

