-- ==== Sys2Proof/WellFormed.lean ====
section
/-! DEFINITION. Well-formed commands. The operand types hold the ranges (a port is P0 to P7, a select code 0 to 3);
the one check left is that a trigger writes a value other than 0 (R143). -/

namespace Sys2Proof

/-- A command the table's rows describe: a TRIGGER carries a nonzero value, since a write of 0 is not a trigger (R143). -/
def Instr.wellFormed (i : Instr) : Bool :=
  match i with
  | .trigger v => v != 0
  | _ => true

end Sys2Proof
end

