-- ==== Sys2Proof/Tests/Slice0.lean ====
section
/-! SUPPORT. Tests: the well-formedness check refuses what it must, each command does on a small state what the spec's
rule says, and for each statement with hypotheses (`witness_<statement>`) a state meets them, clause by clause. -/

set_option maxRecDepth 20000

namespace Sys2Proof.Tests
open Sys2Proof.Machine

/-! ## Small states -/

/-- The state a command goes on with, and the state before it where it stops. -/
def after (i : Instr) (s : State) : State :=
  match exec i s with
  | .next t => t
  | .fault _ => s
  | .refused _ => s

/-- RST# high, P0 to P3 attached, P2 the supervisor, WB at 15. -/
def base : State :=
  { State.reset with
    rstLow := false, supervisor := 2, windowBase := 15
    pres := Vector.ofFn fun i => decide (i.val < 4)
    ports := Vector.ofFn fun i => if i.val < 4 then PortRecord.attached else PortRecord.initial }

/-- A captured record from the bytes that are not 0. -/
def record (bs : List (Nat × Nat)) : Vector Byte 16 := Vector.ofFn fun i => BitVec.ofNat 8 ((bs.lookup i.val).getD 0)

/-- The state with this port's captured record alone in the queue. -/
def due (s : State) (p : Port) (c : Vector Byte 16) : State :=
  { s with
    cmdQueue := [p]
    slots := bankSet s.slots p { CommandSlot.initial with state := .queued, captured := some c, status := .pending } }

/-- A FIXED reservation with preempt, ACTIVE with credit. -/
def sample (owner : Port) : Reservation :=
  { state := .active, owner := owner, cls := .fixed, preempt := true, share := 256, pendingShare := none, maxTenure := 16
    priority := 1, leaseLength := 3, leaseRemaining := 3, credit := 10, causes := { command := false, fence := false }
    shortfall := 0, tag := 0xBEEF }

/-- The handle of S0 at generation 0. -/
def h0 : Handle := { slot := 0, generation := 0 }

/-- A record in S0 and its contribution in the totals. -/
def put (r : Reservation) (s : State) : State :=
  { s.setLive 0 r with committed := r.contribution, preemptTotal := preemptPart r r.contribution }

/-- A tenure of this port with no drawing reservation. -/
def spare (p : Port) : Tenure :=
  { holder := p, drawing := none, standing := .three, usage := 0, idleTicks := 0, idleLimit := 16, spareLimit := 64
    yield := none, tenureG := none, graceRemaining := none, drainRemaining := none }

/-- The state with this tenure in progress and its holder in this state. -/
def hold (t : Tenure) (x : PortState) (s : State) : State := (s.setPortState t.holder x).setTenure (some t)

/-- The state with one waiting entry, its port WAITING. -/
def wait (p : Port) (h : Option Handle) (s : State) : State :=
  (s.setPortState p .waiting).setWaiting p (some { handle := h })

/-- The state with this pending order. -/
def order (l : List Strobe) (s : State) : State := { s with pendingOrder := l }

/-- A cycle of cost 2, and one that falls in the window. -/
def plain : Cycle := { cost := 2, access := none }
def window (o : Byte) (w : Bool) (p : Port) : Cycle := { cost := 2, access := some { offset := o, write := w, port := p } }

/-- P0 holds the bus on its reservation in S0, bound to code 1; P1 waits; a tick is the next command. -/
def lived : State :=
  { wait 1 none (hold { spare 0 with drawing := some h0, standing := .one } .granted
      ((put (sample 0) base).setBinding 0 1 (some h0))) with
    req := Vector.ofFn fun i => decide (i.val < 2)
    pending := [.tick] }

theorem due_takeDue (s : State) (p : Port) (c : Vector Byte 16) (h : s.rstLow = false) (hw : s.walk = none) :
    (due s p c).takeDue p [] c (byteAt c 0) :=
  ⟨h, hw, rfl, by simp [due, State.slot], rfl⟩

theorem order_completes (t : Tenure) (x : PortState) (c : Cycle) (rest : List Strobe) (s : State) (h : s.rstLow = false) :
    (order (.cycle c :: rest) (hold t x s)).completes c rest :=
  ⟨h, rfl, by simp [order, hold]⟩

/-! ## Well-formed commands -/

theorem test_trigger_of_zero_is_ill_formed : Instr.wellFormed (.trigger 0) = false := by decide
theorem test_trigger_of_code_is_well_formed : Instr.wellFormed (.trigger 0x01) = true := by decide
theorem test_no_word_spells_a_command : decodeTableWord 8 0 = none ∧ State.reset.withFetchWord 8 0 = State.reset := ⟨rfl, rfl⟩

/-! ## Commands on small states -/

theorem test_reset_assert : after .resetAssert lived = { State.reset with
    supervisor := 2, windowBase := 15, pres := lived.pres, req := lived.req, pending := [.tick] } := by decide

theorem test_reset_release :
    (after (.resetRelease 5 3) (after (.attach 1) State.reset)).ports =
      bankSet (Vector.replicate 8 PortRecord.initial) 1 PortRecord.attached := by decide

theorem test_attach : ((after (.attach 6) base).port 6).state = .idle := by decide

theorem test_detach_of_the_holder :
    let t := after (.detach 0) lived
    t.tenure = none ∧ t.record 0 = { generation := 1, live := none } ∧ t.committed = 0 ∧ t.binding 0 1 = none ∧
      (bankGet t.notices 2).entries = [{ kind := .portDetached, subject := .port 0, count := 1 }] := by decide

theorem test_request_names_the_bound_handle :
    bankGet (after (.request 0 1) ((put (sample 0) base).setBinding 0 1 (some h0))).waiting 0 =
      some { handle := some h0 } := by decide

theorem test_withdrawal : ((after (.withdrawal 1) lived).port 1).state = .idle := by decide

theorem test_release_drains_then_completes :
    let t := after (.release 0) (order [.cycle plain] lived)
    (t.port 0).state = .draining ∧ t.tenure.bind (·.drainRemaining) = some 8 ∧
      ((after (.ready 0) t).port 0).state = .idle := by decide

theorem test_strobe_costs :
    let t := after (.addressStrobe 0xFF38 false) (after (.addressStrobe 0x1234 true) lived)
    t.pendingOrder = [.cycle plain, .cycle { cost := 1, access := some { offset := 0x38, write := false, port := 0 } }] ∧
      (after (.addressStrobe 0 true) t).pendingOrder = t.pendingOrder ++ [.stray] := by decide

theorem test_ready_charges_the_record :
    let t := after (.ready 0) (order [.cycle plain] lived)
    (t.liveAt 0).map (·.credit) = some 8 ∧ t.tenure.map (·.usage) = some 2 ∧ t.driven = none := by decide

theorem test_ready_spends_the_record :
    let t := after (.ready 0) (order [.cycle plain] (put { sample 0 with credit := 1 } lived))
    (t.port 0).state = .yielding ∧ (t.port 0).lastYield = .asked .spent ∧ (t.liveAt 0).map (·.credit) = some 0 := by decide

theorem test_idle_limit :
    let s := hold { spare 0 with idleTicks := 15 } .granted (wait 1 none base)
    ((after .idleLimit s).port 0).lastYield = .asked .idle ∧ ((after .tick s).port 0).lastYield = .asked .idle := by decide

theorem test_grace_expiry_fences :
    let s := hold { spare 0 with yield := some .preempted, tenureG := some 8, graceRemaining := some 1 } .yielding lived
    let t := after .graceExpiry s
    (t.port 0).state = .fenced ∧ (t.port 0).fenceCount = 1 ∧ (t.liveAt 0).map (·.state) = some .suspended ∧
      (bankGet t.notices 0).entries = [{ kind := .fenced, subject := .none, count := 1 }] ∧
      (bankGet t.notices 2).entries = [{ kind := .portFenced, subject := .port 0, count := 1 }] := by decide

theorem test_grace_expiry_of_the_supervisor :
    let s := hold { spare 2 with yield := some .limit, tenureG := some 8, graceRemaining := some 1 } .yielding
      { base with req := bankSet base.req 2 true }
    let t := after .graceExpiry s
    (t.port 2).state = .idle ∧ (t.port 2).lastYield = .forced ∧ (t.port 2).fenceCount = 1 := by decide

theorem test_drain_expiry :
    let s := order [.cycle plain] (hold { spare 0 with tenureG := some 8, drainRemaining := some 1 } .draining base)
    ((after .drainExpiry s).port 0).lastYield = .cut ∧ (after .drainExpiry s).pendingOrder = [.stray] := by decide

theorem test_boundary :
    let t := after .boundary { base with tickCount := 999, frameNumber := 0xFFFF }
    t.tickCount = 0 ∧ t.frameNumber = 0 ∧ t.sweep = some 0 := by decide

theorem test_tick_takes_the_boundary :
    after .tick { base with tickCount := 999 } = after .boundary { base with tickCount := 999 } := by decide

theorem test_tick_finishes_the_sweep :
    let t := after .tick { put (sample 3) base with tickCount := 15, sweep := some 0 }
    t.tickCount = 16 ∧ t.sweep = none ∧ (t.liveAt 0).map (·.credit) = some 256 := by decide

theorem test_sweep_visit_refills_and_counts_the_lease :
    let t := after .sweepVisit { put { sample 3 with leaseRemaining := 2, pendingShare := some 100 } base with sweep := some 0 }
    (t.liveAt 0).map (fun r => (r.credit, r.leaseRemaining, r.share)) = some (100, 1, 100) ∧ t.committed = 100 ∧
      (bankGet t.notices 3).entries = [{ kind := .leaseLow, subject := .handle h0, count := 1 }] ∧ t.sweep = some 1 := by decide

theorem test_sweep_visit_retires_a_lapsed_record :
    let t := after .sweepVisit
      { put { sample 3 with state := .lapsed, leaseRemaining := 0, credit := 0 } base with sweep := some 0 }
    t.record 0 = { generation := 1, live := none } ∧
      (bankGet t.notices 3).entries = [{ kind := .retired, subject := .handle h0, count := 1 }] := by decide

/-- P3's RENEW of its LAPSED record in S0, triggered before the boundary whose sweep has come to S0. -/
def early : State :=
  { due (put { sample 3 with state := .lapsed, leaseRemaining := 0, credit := 0 } base) 3 (record [(0, 3)]) with
    sweep := some 0 }

theorem test_visit_waits_for_a_renew_triggered_before_the_boundary :
    after .sweepVisit early = early ∧
      ((after .sweepVisit (after .takeRenew early)).liveAt 0).map (fun r => (r.state, r.credit, r.leaseRemaining)) =
        some (.active, 256, 2) ∧
      (after .sweepVisit { early with late := bankSet early.late 3 true }).liveAt 0 = none := by decide

theorem test_last_tick_of_the_sweep_takes_the_renew_first :
    let t := after .tick { early with tickCount := 15 }
    t.cmdQueue = [] ∧ t.sweep = none ∧
      (t.liveAt 0).map (fun r => (r.state, r.credit, r.leaseRemaining)) = some (.active, 256, 2) := by decide

theorem test_trigger_marks_and_boundary_clears :
    let t := after (.trigger 0x03) (order [.cycle (window 0x00 true 0)] lived)
    bankGet t.late 0 = true ∧ (after .boundary { t with tickCount := 999 }).late = Vector.replicate 8 false := by decide

theorem test_grant_by_group_then_rotation :
    let s := wait 0 (some h0) (wait 1 none (wait 3 none (put (sample 0) base)))
    let t := after .grantDecision s
    t.holder = some 0 ∧ t.tenure.map (·.standing) = some .one ∧ bankGet t.pointers 0 = 0 ∧
      (after .grantDecision (wait 1 none (wait 3 none { base with pointers := bankSet base.pointers 5 1 }))).holder =
        some 3 := by decide

theorem test_trigger_queues_the_command :
    let t := after (.trigger 0x07) (order [.cycle (window 0 true 0)] lived)
    t.cmdQueue = [0] ∧ (t.slot 0).state = .queued ∧ (t.slot 0).status = .pending ∧
      ((t.slot 0).captured.map fun c => byteAt c 0) = some 0x07 := by decide

theorem test_trigger_while_queued_is_refused :
    let t := after (.trigger 0x07) (order [.cycle (window 0 true 0)] (due lived 0 (record [])))
    t.cmdQueue = [0] ∧ (t.slot 0).refused = true ∧ t.tenure.map (·.usage) = some 2 := by decide

theorem test_window_write : bankGet ((after (.windowWrite 0xA5) (order [.cycle (window 0x0F true 0)] lived)).slot 0).area 15 =
    0xA5 := by decide

theorem test_port_control_write :
    ((after (.portControlWrite 0xFE) (order [.cycle (window 0x35 true 0)] lived)).port 0).ntfEnable = false := by decide

theorem test_notice_take :
    let t := after .noticeTake (order [.cycle (window 0x38 false 0)]
      (lived.setNotices 0 { entries := [{ kind := .cmdDone, subject := .none, count := 2 },
        { kind := .lapsed, subject := .handle h0, count := 1 }], overrun := false }))
    t.driven = some 0x09 ∧ (bankGet t.notices 0).entries = [{ kind := .cmdDone, subject := .none, count := 2 }] := by decide

theorem test_time_snapshot :
    let t := after .timeSnapshot (order [.cycle (window 0x3C false 0)] { lived with frameNumber := 0x1234, tickCount := 77 })
    t.driven = some 0x34 ∧ bankGet t.snapshots 0 = { frameNumber := 0x1234, tickCount := 77 } := by decide

/-- The reply of a command whose take is due: status, count and the first bytes of its data. -/
def reply (i : Instr) (s : State) (p : Port) (n : Nat) : ReplyStatus × Nat × List Byte :=
  let t := after i s
  ((t.slot p).status, (t.slot p).count, (t.slot p).data.toList.take n)

/-- An OPEN of the terms of `sample`. -/
def openRecord (code : Nat) : Vector Byte 16 :=
  record [(0, code), (2, 1), (4, 1), (5, 16), (7, 1), (8, 3), (9, 0xEF), (10, 0xBE), (11, 1)]

theorem test_bad_command : reply .takeBadCommand (due base 0 (record [(0, 9)])) 0 1 = (.badCommand, 0, [0]) := by decide

theorem test_open :
    (after .takeOpen (due base 0 (openRecord 1))).liveAt 0 = some { sample 0 with credit := 0 } ∧
      reply .takeOpen (due base 0 (openRecord 1)) 0 4 = (.done, 1, [0, 0, 1, 0]) := by decide

theorem test_modify :
    let t := after .takeModify (due (put (sample 0) base) 0 (record [(0, 2), (3, 0x2C), (4, 1), (8, 9), (11, 9)]))
    (t.liveAt 0).map (fun r => (r.share, r.pendingShare, r.leaseLength)) = some (256, some 300, 9) ∧ t.committed = 300 := by
  decide

theorem test_renew :
    reply .takeRenew (due (put { sample 0 with state := .lapsed, leaseRemaining := 0, credit := 0 } base) 0
      (record [(0, 3)])) 0 2 = (.done, 1, [1, 3]) := by decide

theorem test_close :
    (after .takeClose (due (put (sample 0) base) 0 (record [(0, 4)]))).record 0 = { generation := 1, live := none } := by decide

theorem test_bind : (after .takeBind (due (put (sample 0) base) 0 (record [(0, 5), (11, 3)]))).binding 0 3 = some h0 := by decide

theorem test_unbind : reply .takeUnbind (due lived 0 (record [(0, 6), (11, 1)])) 0 2 = (.done, 1, [0, 0]) := by decide

theorem test_query :
    reply .takeQuery (due (put (sample 0) base) 0 (record [(0, 7)])) 0 21 =
      (.done, 1, [0, 0, 1, 0, 0, 1, 0, 1, 0, 0, 16, 0, 1, 3, 3, 10, 0, 0, 0, 0xEF, 0xBE]) := by decide

theorem test_list_and_its_visits :
    let s := { put { sample 0 with tag := 0x0102 } base with
      walk := some { issuer := 0, next := 31, ticks := 0, kind := .list 0 0 [(h0, 0x0102)] } }
    (after .takeList (due base 0 (record [(0, 8)]))).walk = some { issuer := 0, next := 0, ticks := 0, kind := .list 0 0 [] } ∧
      reply .listVisit s 0 5 = (.done, 1, [0, 0, 2, 1, 0]) := by decide

theorem test_open_for :
    let t := after .takeOpenFor (due base 2 (openRecord 0x10))
    (t.liveAt 0).map (·.owner) = some 1 ∧
      (bankGet t.notices 1).entries = [{ kind := .opened, subject := .handle h0, count := 1 }] ∧
      reply .takeOpenFor (due base 0 (openRecord 0x10)) 0 1 = (.notSupervisor, 0, [0]) := by decide

theorem test_revoke :
    let t := after .takeRevoke (due (put (sample 0) base) 2 (record [(0, 0x11)]))
    t.liveAt 0 = none ∧ (bankGet t.notices 0).entries = [{ kind := .revoked, subject := .handle h0, count := 1 }] := by decide

theorem test_suspend_withdraws_the_drawing_reservation :
    let t := after .takeSuspend (due lived 2 (record [(0, 0x12)]))
    (t.port 0).lastYield = .asked .withdrawn ∧ t.tenure.map (·.drawing) = some none ∧
      ((t.slot 2).data.toList.take 2) = [2, 1] := by decide

theorem test_resume :
    reply .takeResume (due (put { sample 0 with state := .suspended, credit := 0, causes := { command := true, fence := true } }
      base) 2 (record [(0, 0x13)])) 2 2 = (.done, 1, [2, 2]) := by decide

theorem test_demote :
    (after .takeDemote (due base 2 (record [(0, 0x14), (11, 7)]))).pointers = Vector.replicate 6 7 := by decide

theorem test_clear_fence :
    reply .takeClearFence (due { base.setPortState 1 .fenced with req := bankSet base.req 1 true } 2
      (record [(0, 0x15), (11, 1)])) 2 1 = (.done, 1, [2]) := by decide

theorem test_set_frame :
    (after .takeSetFrame (due base 2 (record [(0, 0x16), (2, 4), (3, 16), (5, 16), (7, 1), (9, 1), (11, 1)]))).pendingConfig =
      some { capacity := 1024, reserve := 16, frameTicks := 16, grace := 1, idle := 1, spare := 1 } := by decide

theorem test_reset_table_and_its_visits :
    let s := { put (sample 0) base with walk := some { issuer := 2, next := 0, ticks := 0, kind := .resetTable 0 false } }
    (after .takeResetTable (due base 2 (record [(0, 0x17)]))).walk = s.walk ∧
      (after .resetTableVisit s).walk = some { issuer := 2, next := 1, ticks := 0, kind := .resetTable 1 false } ∧
      reply .resetTableVisit { s with walk := some { issuer := 2, next := 31, ticks := 0, kind := .resetTable 5 false } } 2 1 =
        (.done, 1, [5]) := by decide

theorem test_query_port :
    reply .takeQueryPort (due lived 2 (record [(0, 0x18), (11, 1)])) 2 17 =
      (.done, 1, [2, 0, 0, 0, 0, 0, 0, 0, 0, 0, 0, 0, 0, 1, 0, 0, 6]) := by decide

/-! ## Witnesses: states that meet the hypotheses, one part per clause -/

theorem witness_StepRunsFrontCommand : State.reset.pending = [] := rfl

theorem witness_ResetReleaseSamplesStraps : State.reset.rstLow = true ∧ base.rstLow = false := by decide

theorem witness_AttachMakesDetachedPortIdle :
    (base.rstLow = false ∧ (base.port 7).state = .detached) ∧ State.reset.rstLow = true ∧ (base.port 0).state ≠ .detached := by
  decide

/-- P2 is the supervisor and attached; P0 holds the bus and owns S0. -/
theorem witness_DetachRemovesEveryTrace :
    State.reset.rstLow = true ∧ (base.port 7).state = .detached ∧
    (lived.rstLow = false ∧ (lived.port 0).state ≠ .detached) ∧ lived.holder = some 0 ∧ lived.holder ≠ some 1 ∧
    (let s := put (sample 1) lived
     s.holder ≠ some 1 ∧ s.tenure.bind (·.drawing) = some h0 ∧ s.fresh h0 = some (sample 1)) ∧
    (∀ r, lived.fresh h0 = some r → r.owner ≠ 1) ∧ lived.walk = none ∧
    lived.liveAt 0 = some (sample 0) ∧ (∀ r, lived.liveAt 31 = some r → r.owner ≠ 0) ∧
    (let w : Walk := { issuer := 0, next := 0, ticks := 0, kind := .list 0 31 [] }
     ({ lived with walk := some w } : State).walk = some w ∧ w.issuer = 0 ∧ w.issuer ≠ 1 ∧ w.kind = .list 0 31 []) ∧
    (let w : Walk := { issuer := 2, next := 31, ticks := 0, kind := .resetTable 0 false }
     ({ lived with walk := some w } : State).walk = some w ∧ w.issuer = 2 ∧ w.kind = .resetTable 0 false) ∧
    (2 : Port) = lived.supervisor ∧ (lived.port 2).state ≠ .detached := by
  refine ⟨by decide, by decide, by decide, by decide, by decide, by decide, ?_, by decide, by decide, ?_, by decide, by decide,
    by decide, by decide⟩
  · intro r h
    have : lived.fresh h0 = some (sample 0) := by decide
    rw [this] at h
    cases h
    decide
  · intro r h
    have : lived.liveAt 31 = none := by decide
    simp [this] at h

theorem witness_RequestInIdleMakesEntry :
    (base.rstLow = false ∧ bankGet base.req 0 = false ∧ (base.port 0).state = .idle) ∧ State.reset.rstLow = true ∧
      bankGet lived.req 0 = true ∧ (base.port 7).state ≠ .idle := by decide

theorem witness_RequestFallWithdrawsOrReleases :
    (lived.rstLow = false ∧ (lived.port 1).state = .waiting) ∧
    ((lived.port 0).state = .granted ∧ (lived.tenure.map (·.holder)) = some 0 ∧ lived.cycles = []) ∧
    ((order [.cycle plain] lived).port 0).state = .granted ∧ (order [.cycle plain] lived).cycles ≠ [] ∧
    ((hold (spare 0) .yielding base).port 0).state = .yielding ∧ (hold (spare 0) .yielding base).cycles = [] ∧
    (hold (spare 0) .yielding (order [.cycle plain] base)).cycles ≠ [] ∧ State.reset.rstLow = true ∧
    ([(base.port 7).state, (base.port 0).state, ((base.setPortState 0 .draining).port 0).state,
      ((base.setPortState 0 .fenced).port 0).state] = [.detached, .idle, .draining, .fenced]) := by decide

theorem witness_StrobeJoinsListOrBecomesStray :
    State.reset.rstLow = true ∧ (lived.rstLow = false ∧ lived.holder = some 0 ∧ lived.cycles.length = 0) ∧
      (order [.cycle plain] lived).cycles.length = 1 ∧ base.tenure = none ∧
      (order [.cycle plain, .cycle plain] lived).cycles.length = 2 := by decide

/-- The two guards of a ready, met by any small state with RST# high. -/
theorem witness_ReadyCompletesOldestEntry :
    State.reset.rstLow = true ∧ (base.rstLow = false ∧ base.pendingOrder = []) ∧ (order [.stray] base).pendingOrder = [.stray] ∧
    ((order [.cycle plain] (hold (spare 0) .granted base)).completes plain [] ∧ plain.access = none) ∧
    ((order [.cycle (window 0x37 false 0)] (hold (spare 0) .granted base)).completes (window 0x37 false 0) [] ∧
      (window 0x37 false 0).access = some { offset := 0x37, write := false, port := 0 } ∧
      (0x37 : Byte) ≠ 0x38 ∧ (0x37 : Byte) ≠ 0x3C) :=
  ⟨rfl, ⟨rfl, rfl⟩, rfl, ⟨order_completes _ _ _ _ _ rfl, rfl⟩, order_completes _ _ _ _ _ rfl, rfl, by decide, by decide⟩

theorem witness_TriggerIsAcceptedOrRefused :
    ((1 : Byte) ≠ 0 ∧
      (order [.cycle (window 0x00 true 0)] (hold (spare 0) .granted base)).completes (window 0x00 true 0) []) ∧
    ∀ x ∈ [SlotState.idle, .done, .queued, .running],
      ((order [.cycle (window 0x00 true 0)] (hold (spare 0) .granted (base.setSlot 0 { CommandSlot.initial with state := x }))).slot
        0).state = x :=
  ⟨⟨by decide, order_completes _ _ _ _ _ rfl⟩, by decide⟩

theorem witness_WindowWritesReachTheHoldersOwnState :
    (∀ o ∈ [(0x00 : Byte), 0x01, 0x0F, 0x10, 0x34, 0x35, 0x36, 0xFF],
      (order [.cycle (window o true 0)] (hold (spare 0) .granted base)).completes (window o true 0) []) ∧
    ((0x00 : Byte).toNat = (0 : Fin 16).val ∧ (0x0F : Byte).toNat = (15 : Fin 16).val ∧ (15 : Fin 16) ≠ 0) ∧
    (∀ o ∈ [(0x10 : Byte), 0x34, 0x36, 0xFF], 16 ≤ o.toNat ∧ o ≠ 0x35) :=
  ⟨fun _ _ => order_completes _ _ _ _ _ rfl, by decide, by decide⟩

theorem witness_NoticeTakeRemovesFirstRankedItem :
    (order [.cycle (window 0x38 false 0)] (hold (spare 0) .granted base)).completes (window 0x38 false 0) [] ∧
    (bankGet (base.setNotices 0 { entries := [], overrun := true }).notices 0).overrun = true ∧
    ((bankGet base.notices 0).overrun = false ∧ (bankGet base.notices 0).entries = []) ∧
    (let a : NoticeEntry := { kind := .lapsed, subject := .handle { slot := 31, generation := 0 }, count := 1 }
     let e : NoticeEntry := { kind := .lapsed, subject := .handle h0, count := 15 }
     let b : NoticeEntry := { kind := .lapsed, subject := .handle { slot := 0, generation := 1 }, count := 1 }
     (bankGet (base.setNotices 0 { entries := [a, e, b], overrun := false }).notices 0).entries = [a] ++ e :: [b] ∧
       (∀ x ∈ [a], e.rank < x.rank) ∧ ∀ x ∈ [b], e.rank ≤ x.rank) :=
  ⟨order_completes _ _ _ _ _ rfl, by decide, by decide, by decide⟩

theorem witness_TimeSnapshotCopiesTime :
    (order [.cycle (window 0x3C false 0)] (hold (spare 0) .granted base)).completes (window 0x3C false 0) [] :=
  order_completes _ _ _ _ _ rfl

theorem witness_WindowShowsTheHoldersOwnBytes :
    (bankGet base.notices 0).entries.length ≤ 16 ∧
    (bankGet (base.setLatch 0 { kind := .notice .lapsed, subject := .handle h0, count := 1 }).latches 0).subject = .handle h0 ∧
    (bankGet (base.setLatch 0 { kind := .notice .portFenced, subject := .port 7, count := 1 }).latches 0).subject = .port 7 ∧
    (bankGet base.latches 0).subject = .none ∧ (bankGet base.snapshots 0).tickCount < 65536 ∧
    frameInRange base.config = true := by decide

theorem witness_ChargeOfCompletedCycle :
    (hold (spare 0) .granted base).tenure = some (spare 0) ∧ (spare 0).drawing = none ∧
    (lived.tenure.bind (·.drawing) = some h0 ∧ lived.fresh h0 = some (sample 0) ∧
      ¬(0 < (sample 0).credit ∧ (sample 0).credit ≤ 2)) ∧
    (∀ credit ∈ [1, 2], ∀ cls ∈ [ResClass.fixed, .elastic],
      (put { sample 0 with credit := credit, cls := cls } lived).fresh h0 = some { sample 0 with credit := credit, cls := cls } ∧
        0 < credit ∧ credit ≤ 2) ∧
    ((lived.port 0).state = .granted ∧ lived.tenure.bind (·.yield) = none) ∧
    ((hold { spare 0 with drawing := some h0, yield := some .limit } .yielding lived).port 0).state ≠ .granted := by decide

theorem witness_DrainCompletesWhenTheListIsEmpty :
    (∀ x ∈ [PortState.draining, .granted], ((hold (spare 0) x base).port 0).state = x ∧
      (hold (spare 0) x base).tenure = some (spare 0) ∧ (hold (spare 0) x base).cycles = []) ∧
    (order [.cycle plain] (hold (spare 0) .draining base)).cycles ≠ [] ∧ base.tenure = none := by decide

theorem witness_RankOfWaitingEntry :
    ∀ r ∈ [sample 0, { sample 0 with preempt := false, credit := 1 }, { sample 0 with preempt := false, cls := .elastic },
        { sample 0 with preempt := false, cls := .elastic, credit := 0 }, { sample 0 with credit := 0 },
        { sample 0 with state := .suspended, credit := 0, causes := { command := true, fence := false } }],
      (put r base).fresh h0 = some r := by decide

theorem witness_RankOfWaitingEntry_sound : { sample 0 with preempt := false, cls := .elastic }.sound := by
  unfold Reservation.sound; simp [sample]

theorem witness_YieldTestAssertsFirstConditionMet :
    base.tenure = none ∧
    (∀ t ∈ [spare 0, { spare 0 with usage := 64 }, { spare 0 with idleTicks := 16 }],
      (hold t .granted (wait 1 none base)).tenure = some t ∧ ((hold t .granted (wait 1 none base)).port 0).state = .granted ∧
        t.yield = none ∧ (hold t .granted (wait 1 none base)).competitorTier 1 = some .three) ∧
    ((hold (spare 0) .yielding base).port 0).state ≠ .granted ∧
    (hold (spare 0) .granted (wait 1 (some h0) (put (sample 1) base))).competitorTier 1 = some .one ∧
    (hold (spare 0) .granted (wait 1 (some h0) (put { sample 1 with preempt := false } base))).competitorTier 1 = some .two ∧
    ((hold { spare 0 with standing := .two, drawing := some h0, usage := 16 } .granted (wait 1 none (put (sample 0) base))).fresh
      h0).map (·.maxTenure) = some 16 := by decide

theorem witness_WithdrawalAndRefillOfDrawingReservation :
    base.tenure.bind (·.drawing) ≠ some h0 ∧ (lived.tenure.bind (·.drawing) = some h0 ∧ (lived.port 0).state = .granted ∧
      lived.tenure.bind (·.yield) = none) ∧
    ((hold { spare 0 with drawing := some h0, yield := some .limit } .yielding lived).port 0).state ≠ .granted := by decide

/-- The lines' clauses: RST# low, and a sound bus with a holder, met by `State.reset` and `lived`. -/
theorem witness_outputLines :
    State.reset.rstLow = true ∧ lived.rstLow = false ∧ lived.gntLine 0 = true ∧
    ((hold { spare 0 with yield := some .limit } .yielding base).yldLine 0 = true ∧
      (hold { spare 0 with yield := some .limit } .yielding base).gntLine 0 = true) ∧
    (base.place 0 .opened (.handle h0)).ntfLine 0 = true := by decide

theorem witness_GrantDecisionGrantsTheWinner :
    State.reset.rstLow = true ∧ (lived.port 0).state.holdsBus = true ∧ (∀ q, base.groupOf q = none) ∧
    (let s := wait 1 none (wait 3 none base)
     s.rstLow = false ∧ (∀ q, (s.port q).state.holdsBus = false) ∧ s.groupOf 1 = some 5 ∧
       (∀ q g', s.groupOf q = some g' → (5 : Group) ≤ g') ∧
       ∀ q, s.groupOf q = some 5 → (1 : Port) - bankGet s.pointers 5 - 1 ≤ q - bankGet s.pointers 5 - 1) ∧
    (let s := wait 1 (some h0) (wait 3 none (put (sample 1) base))
     s.groupOf 1 = some 0 ∧ (∀ q g', s.groupOf q = some g' → (0 : Group) ≤ g')) := by decide

theorem witness_TickCountsTheFrame :
    State.reset.rstLow = true ∧ base.rstLow = false ∧
    (∀ n ∈ [14, 15, 998], ({ base with tickCount := n } : State).tickCount + 1 < base.config.frameTicks) ∧ 14 + 1 < 16 ∧
    16 ≤ 15 + 1 ∧ base.sweep = none ∧ base.cmdQueue = [] ∧ base.config.frameTicks ≤ ({ base with tickCount := 999 } : State).tickCount + 1 := by
  decide

theorem witness_TickCountsIdleGraceAndDrain :
    base.rstLow = false ∧ base.tenure = none ∧
    (∀ x ∈ [PortState.granted, .yielding, .draining], ((hold (spare 0) x base).port 0).state = x) ∧
    (lived.cycles = [] ∧ (order [.cycle plain] lived).cycles ≠ [] ∧ bankGet lived.req 0 = true) ∧
    (∀ g ∈ [some 1, some 2], (hold { spare 0 with graceRemaining := g, drainRemaining := g } .yielding lived).tenure.bind
      (·.graceRemaining) = g) := by decide

theorem witness_BoundaryBeginsTheNextFrame :
    (base.rstLow = false ∧ base.config.frameTicks ≤ ({ base with tickCount := 999 } : State).tickCount + 1) ∧
    (base.walk = none ∧ base.sweep = none) ∧ (early.rstLow = false ∧ early.sweep = some 0 ∧ early.renewWaits 0 = true) ∧
    early.takeDue 3 [] (record [(0, 3)]) 0x03 ∧ (let c := record [(0, 9)]
      let s := { early with
        cmdQueue := [0, 3]
        slots := bankSet early.slots 0 { CommandSlot.initial with state := .queued, captured := some c, status := .pending } }
      s.renewWaits 0 = true ∧ s.cmdQueue = [0, 3] ∧ (s.slot 0).captured = some c ∧ byteAt c 0 ∉ commandTakes.map (·.2)) ∧
    (∀ k ∈ [WalkKind.list 0 0 [], .resetTable 0 false],
      let w : Walk := { issuer := 2, next := 31, ticks := 0, kind := k }
      let s := { early with walk := some w }
      s.walk = some w ∧ s.renewWaits 0 = true) ∧
    ({ early with cmdQueue := [] } : State).renewWaits 0 = false ∧
    (∀ n ∈ [0, 1, 2], ({ base with
        walk := some { issuer := 0, next := 1, ticks := n, kind := .list 0 0 [] } } : State).walk =
      some { issuer := 0, next := 1, ticks := n, kind := .list 0 0 [] }) ∧ (0 + 1 ≤ (1 : Slot).val ∧ (1 : Slot).val < 1 + 1) ∧
    (16 ≤ 15 + 1 ∧ 14 + 1 < 16) ∧
    State.reset.rstLow = true ∧ ({ base with tickCount := 998 } : State).tickCount + 1 < base.config.frameTicks := by
  refine ⟨by decide, by decide, by decide, ?_, by decide, by decide, by decide, by decide, by decide, by decide, by decide,
    by decide⟩
  exact ⟨rfl, rfl, rfl, by decide, by decide⟩

theorem witness_IdleLimitAsksToYield :
    (let t := { spare 0 with idleTicks := 15 }
     let s := hold t .granted (wait 1 none base)
     s.tenure = some t ∧ s.rstLow = false ∧ (s.port 0).state = .granted ∧ t.yield = none ∧ s.cycles = [] ∧
       s.competitorTier 1 ≠ none ∧ t.idleLimit ≤ min 255 (t.idleTicks + 1) ∧ s.preempts t.standing = false ∧
       s.limitReached t = false ∧ (order [.cycle plain] s).cycles ≠ []) ∧
    State.reset.rstLow = true ∧ ((hold (spare 0) .yielding base).port 0).state ≠ .granted ∧
    ({ spare 0 with yield := some .limit }).yield ≠ none ∧ (∀ q, (hold (spare 0) .granted base).competitorTier q = none) ∧
    min 255 ({ spare 0 with idleTicks := 14 }.idleTicks + 1) < (spare 0).idleLimit := by decide

theorem witness_GraceExpiryFencesOrWithdrawsByForce :
    (let t := { spare 0 with yield := some .limit, tenureG := some 8, graceRemaining := some 1 }
     let s := hold t .yielding lived
     s.tenure = some t ∧ s.rstLow = false ∧ (s.port 0).state = .yielding ∧ t.graceRemaining = some 1 ∧
       bankGet s.req t.holder = true ∧ t.holder ≠ s.supervisor) ∧
    (let t := { spare 2 with yield := some .limit, tenureG := some 8, graceRemaining := some 1 }
     let s := hold t .yielding { base with req := bankSet base.req 2 true }
     s.tenure = some t ∧ (s.port 2).state = .yielding ∧ bankGet s.req t.holder = true ∧ t.holder = s.supervisor) ∧
    State.reset.rstLow = true ∧ (lived.port 0).state ≠ .yielding ∧ (spare 0).graceRemaining = none ∧
    ({ spare 0 with graceRemaining := some 2 }).graceRemaining = some (0 + 2) ∧ bankGet base.req 0 = false := by decide

theorem witness_DrainExpiryCutsOutstandingCycles :
    (let t := { spare 0 with tenureG := some 8, drainRemaining := some 1 }
     let s := order [.cycle plain] (hold t .draining base)
     s.tenure = some t ∧ s.rstLow = false ∧ (s.port 0).state = .draining ∧ t.drainRemaining = some 1 ∧ s.cycles ≠ []) ∧
    State.reset.rstLow = true ∧ (lived.port 0).state ≠ .draining ∧ (spare 0).drainRemaining = none ∧
    ({ spare 0 with drainRemaining := some 2 }).drainRemaining = some (0 + 2) ∧ lived.cycles = [] := by decide

theorem witness_SweepVisitPassesFreezesOrRetires :
    State.reset.rstLow = true ∧ base.sweep = none ∧
    (∀ k : Slot, ∃ next : Option Slot, (next = none ↔ k.val = 31) ∧ ∀ j, next = some j → j.val = k.val + 1) ∧
    ({ base with sweep := some 31 } : State).liveAt 31 = none ∧
    (∀ x ∈ [LiveState.suspended, .lapsed], ((put { sample 3 with state := x } base).liveAt 0).map (·.state) = some x ∧
      (put { sample 3 with state := x } base).renewWaits 0 = false) ∧
    (early.sweep = some 0 ∧ early.renewWaits 0 = true) := by
  refine ⟨by decide, by decide, fun k => ⟨nextSlot k, ?_⟩, by decide, by decide, by decide⟩
  revert k; decide

/-- One hypothesis set per lease length, lease remaining and shortfall that the visit tells apart. -/
theorem witness_SweepVisitRefillsAndCountsLease :
    ∀ r ∈ [sample 3, { sample 3 with leaseRemaining := 1 }, { sample 3 with leaseRemaining := 2 },
        { sample 3 with leaseLength := 0, leaseRemaining := 0, pendingShare := some 1 }],
      let s := { wait 3 (some h0) (put r base) with sweep := some 0 }
      s.rstLow = false ∧ s.sweep = some 0 ∧ s.liveAt 0 = some r ∧ r.state = .active ∧ nextSlot 0 = some 1 ∧
        (0 < r.credit ∧ bankGet s.waiting r.owner = some { handle := some h0 } ∧ s.entryRank { handle := some h0 } ≠ .held) := by
  decide

theorem witness_RetirementFreesTheRecord :
    base.liveAt 0 = none ∧ lived.liveAt 0 = some (sample 0) ∧
    h0 = { slot := 0, generation := (lived.record 0).generation } := by decide

theorem witness_NoticePlacementMergesStoresOrOverruns :
    (base.port 7).state = .detached ∧ ((base.port 0).state ≠ .detached ∧ (base.port 0).ntfEnable = true ∧ base.rstLow = false) ∧
    (let e : NoticeEntry := { kind := .cmdDone, subject := .none, count := 15 }
     (bankGet (base.setNotices 0 { entries := [e], overrun := false }).notices 0).entries = [] ++ e :: []) ∧
    (bankGet base.notices 0).entries.length = 0 ∧
    (bankGet (base.setNotices 0 { entries := [], overrun := true }).notices 0).nonempty = true ∧
    ((base.setPort 0 { base.port 0 with ntfEnable := false }).port 0).ntfEnable = false ∧
    (let es : List NoticeEntry := (List.finRange 15).map fun k =>
        { kind := .lapsed, subject := .handle { slot := ⟨k.val, by omega⟩, generation := 0 }, count := 1 }
     es.length < 16 ∧ ({ kind := .opened, subject := .handle h0, count := 1 } :: es).length = 16 ∧
       ∀ y ∈ ({ kind := .opened, subject := .handle h0, count := 1 } :: es : List NoticeEntry),
         ¬(y.kind = .cmdDone ∧ y.subject = .none)) := by decide

theorem witness_UndueEventsChangeNothing :
    (∀ p rest c b, ¬base.takeDue p rest c b) ∧ (∀ w, base.walk ≠ some w) ∧
    (∀ o ∈ [(0x00 : Byte), 0x05, 0x35, 0x38, 0x3C], ∀ w ∈ [true, false],
      (order [.cycle (window o w 0)] (hold (spare 0) .granted base)).pendingOrder = .cycle (window o w 0) :: [] ∧
        (window o w 0).access = some { offset := o, write := w, port := 0 }) ∧
    (base.pendingOrder = [] ∧ (order [.stray] base).pendingOrder = [.stray]) := by
  refine ⟨?_, ?_, by decide, by decide⟩
  · rintro p rest c b ⟨-, -, h, -⟩
    have : base.cmdQueue = [] := rfl
    simp [this] at h
  · intro w h
    have : base.walk = none := rfl
    simp [this] at h

/-- A take of any code from any port is due in a small state. -/
theorem witness_takeDue (p : Port) (code : Fin 256) (f : Nat × Nat) :
    (due base p (record [(0, code.val), f])).takeDue p [] (record [(0, code.val), f]) (BitVec.ofNat 8 code.val) := by
  have := due_takeDue base p (record [(0, code.val), f]) rfl rfl
  have e : byteAt (record [(0, code.val), f]) 0 = BitVec.ofNat 8 code.val := by
    simp [byteAt, record]
  rwa [e] at this

theorem witness_UndefinedCodesAndForeignSupervisorCommandsAreRefused :
    (∀ b ∈ [(0x09 : Byte), 0x0F, 0x19, 0xFF], b ∉ commandTakes.map (·.2)) ∧ (0 : Port) ≠ (due base 0 (record [])).supervisor ∧
    (due base 0 (record [(0, 9)])).takeDue 0 [] (record [(0, 9)]) 0x09 ∧
    (due base 0 (record [(0, 0x18)])).takeDue 0 [] (record [(0, 0x18)]) 0x18 :=
  ⟨by decide, by decide, due_takeDue base 0 (record [(0, 9)]) rfl rfl, due_takeDue base 0 (record [(0, 0x18)]) rfl rfl⟩

/-- The table with every slot live and owned by one port. -/
def full (p : Port) (s : State) : State :=
  { s with table := Vector.ofFn fun _ => { generation := 0, live := some (sample p) } }

theorem base_lowest_free : base.isLowestFree 0 := ⟨by decide, fun j h => absurd h (Nat.not_lt_zero _)⟩

theorem witness_OpenWritesTheLowestFreeSlot :
    (due base 0 (openRecord 1)).takeDue 0 [] (openRecord 1) 0x01 ∧
    openTerms false (record [(0, 1)]) = none ∧ (openTerms false (openRecord 1)).isSome = true ∧
    (∀ k, (full 0 base).liveAt k ≠ none) ∧ base.isLowestFree 0 ∧
    (8 ≤ ({ full 0 base with table := bankSet (full 0 base).table 31 TableRecord.initial } : State).owned 0) ∧
    (base.owned 0 < 8 ∧ base.committed + 256 ≤ base.commitLimit ∧ base.preemptTotal + 256 ≤ base.preemptLimit) ∧
    ({ base with committed := 3329 } : State).commitLimit < 3329 + 256 ∧
    ({ base with preemptTotal := 257 } : State).preemptLimit < 257 + 256 :=
  ⟨due_takeDue base 0 (openRecord 1) rfl rfl, by decide, by decide, by decide, base_lowest_free, by decide, by decide, by decide,
    by decide⟩

theorem witness_LimitsAreTheStricterOfBothConfigurations :
    base.pendingConfig = none ∧
    ({ base with pendingConfig := some FrameConfig.powerOn } : State).pendingConfig = some FrameConfig.powerOn := by decide

theorem witness_OpenForWritesTheLowestFreeSlot :
    (due base 2 (openRecord 0x10)).takeDue base.supervisor [] (openRecord 0x10) 0x10 ∧
    8 ≤ field8 (record [(0, 0x10), (11, 8)]) 0x0B ∧ openTerms true (record [(0, 0x10)]) = none ∧
    field8 (openRecord 0x10) 0x0B = (1 : Port).val ∧ (openTerms true (openRecord 0x10)).isSome = true ∧
    (base.port 7).state = .detached ∧ (base.port 1).state ≠ .detached ∧ (∀ k, (full 1 base).liveAt k ≠ none) ∧
    8 ≤ (full 1 base).owned 1 ∧ base.owned 1 < 8 :=
  ⟨due_takeDue base 2 (openRecord 0x10) rfl rfl, by decide, by decide, by decide, by decide, by decide, by decide, by decide,
    by decide, by decide⟩

/-- The records a MODIFY's clauses tell apart, each live under the handle the captured record names. -/
theorem witness_ModifyChangesEveryNamedField :
    (due (put (sample 0) base) 0 (record [(0, 2), (11, 1), (4, 2)])).takeDue 0 [] (record [(0, 2), (11, 1), (4, 2)]) 0x02 ∧
    (handleField (record [(0, 2), (11, 1), (4, 2)]) = h0 ∧ field16 (record [(0, 2), (11, 1), (4, 2)]) 0x03 = 512) ∧
    (∀ r ∈ [sample 0, { sample 0 with preempt := false }, { sample 0 with state := .lapsed, credit := 0, leaseRemaining := 0 },
        { sample 0 with leaseLength := 0, leaseRemaining := 0 }], (put r base).fresh h0 = some r) ∧
    base.fresh h0 = none ∧ (sample 0).owner ≠ 1 ∧ (1 : Port) ≠ base.supervisor ∧
    ((sample 0).contribution < 512 ∧ 256 + (512 - 256) ≤ base.commitLimit ∧ 256 + (512 - 256) ≤ base.preemptLimit) ∧
    (base.commitLimit < 3500 + (512 - 256) ∧ base.preemptLimit < 257 + (512 - 256)) ∧
    (byteAt (record [(0, 2), (11, 2), (5, 33)]) 0x0B).getLsbD 1 = true ∧ 32 < field16 (record [(0, 2), (11, 2), (5, 33)]) 0x05 ∧
    (byteAt (record [(0, 2), (11, 8)]) 0x0B).getLsbD 3 = true ∧ (byteAt (record [(0, 2), (11, 4)]) 0x0B).getLsbD 2 = true ∧
    lived.tenure.bind (·.drawing) = some h0 ∧ (bankGet (wait 0 (some h0) base).waiting 0).bind (·.handle) = some h0 :=
  ⟨due_takeDue (put (sample 0) base) 0 (record [(0, 2), (11, 1), (4, 2)]) rfl rfl, by decide, by decide, by decide, by decide,
    by decide, by decide, by decide, by decide, by decide, by decide, by decide, by decide, by decide⟩

theorem witness_RenewReloadsTheLease :
    (due (put (sample 0) base) 0 (record [(0, 3)])).takeDue 0 [] (record [(0, 3)]) 0x03 ∧
    (base.fresh (handleField (record [(0, 3)])) = none ∧ (sample 0).owner ≠ 1 ∧ (1 : Port) ≠ base.supervisor) ∧
    (∀ r ∈ [sample 0, { sample 0 with leaseLength := 0, leaseRemaining := 0 },
        { sample 0 with state := .lapsed, credit := 0, leaseRemaining := 0 }],
      (put r base).fresh (handleField (record [(0, 3)])) = some r) ∧
    (base.port 0).state ≠ .fenced ∧ ((base.setPortState 0 .fenced).port 0).state = .fenced :=
  ⟨due_takeDue (put (sample 0) base) 0 (record [(0, 3)]) rfl rfl, by decide, by decide, by decide, by decide⟩

theorem witness_CloseAndRevokeRetireTheRecord :
    (due (put (sample 0) base) 0 (record [(0, 4)])).takeDue 0 [] (record [(0, 4)]) 0x04 ∧
    (due (put (sample 0) base) 2 (record [(0, 0x11)])).takeDue base.supervisor [] (record [(0, 0x11)]) 0x11 ∧
    handleField (record [(0, 4)]) = h0 ∧ handleField (record [(0, 0x11)]) = h0 ∧ base.fresh h0 = none ∧
    (put (sample 0) base).fresh h0 = some (sample 0) ∧ (put (sample 1) base).fresh h0 = some (sample 1) :=
  ⟨due_takeDue (put (sample 0) base) 0 (record [(0, 4)]) rfl rfl,
    due_takeDue (put (sample 0) base) 2 (record [(0, 0x11)]) rfl rfl, by decide, by decide, by decide, by decide, by decide⟩

theorem witness_BindNamesTheIssuersOwnReservation :
    (due (put (sample 0) base) 0 (record [(0, 5), (11, 3)])).takeDue 0 [] (record [(0, 5), (11, 3)]) 0x05 ∧
    4 ≤ field8 (record [(0, 5), (11, 4)]) 0x0B ∧ field8 (record [(0, 5), (11, 3)]) 0x0B = (3 : SelCode).val ∧
    handleField (record [(0, 5), (11, 3)]) = h0 ∧ base.fresh h0 = none ∧ (put (sample 0) base).fresh h0 = some (sample 0) ∧
    (put (sample 1) base).fresh h0 = some (sample 1) :=
  ⟨due_takeDue (put (sample 0) base) 0 (record [(0, 5), (11, 3)]) rfl rfl, by decide, by decide, by decide, by decide, by decide,
    by decide⟩

theorem witness_UnbindFreesOneCode :
    (due lived 0 (record [(0, 6), (11, 1)])).takeDue 0 [] (record [(0, 6), (11, 1)]) 0x06 ∧
    4 ≤ field8 (record [(0, 6), (11, 4)]) 0x0B ∧ field8 (record [(0, 6), (11, 3)]) 0x0B = (3 : SelCode).val ∧
    lived.binding 0 3 = none ∧ lived.binding 0 1 = some h0 :=
  ⟨due_takeDue lived 0 (record [(0, 6), (11, 1)]) rfl rfl, by decide, by decide, by decide, by decide⟩

theorem witness_QueriesReportAndChangeNothing :
    (due (put (sample 0) base) 0 (record [(0, 7)])).takeDue 0 [] (record [(0, 7)]) 0x07 ∧
    (due lived 2 (record [(0, 0x18), (11, 7)])).takeDue lived.supervisor [] (record [(0, 0x18), (11, 7)]) 0x18 ∧
    handleField (record [(0, 7)]) = h0 ∧ base.fresh h0 = none ∧ (put (sample 0) base).fresh h0 = some (sample 0) ∧
    ((sample 0).owner ≠ 1 ∧ (1 : Port) ≠ base.supervisor) ∧ 8 ≤ field8 (record [(0, 0x18), (11, 8)]) 0x0B ∧
    field8 (record [(0, 0x18), (11, 7)]) 0x0B = (7 : Port).val :=
  ⟨due_takeDue (put (sample 0) base) 0 (record [(0, 7)]) rfl rfl, due_takeDue lived 2 (record [(0, 0x18), (11, 7)]) rfl rfl,
    by decide, by decide, by decide, by decide, by decide, by decide⟩

theorem witness_WalksBeginAtSlotZero :
    (due base 0 (record [(0, 8), (1, 31)])).takeDue 0 [] (record [(0, 8), (1, 31)]) 0x08 ∧
    (due base 2 (record [(0, 8), (11, 7)])).takeDue base.supervisor [] (record [(0, 8), (11, 7)]) 0x08 ∧
    (due base 2 (record [(0, 0x17)])).takeDue base.supervisor [] (record [(0, 0x17)]) 0x17 ∧
    32 ≤ field8 (record [(0, 8), (1, 32)]) 0x01 ∧ 8 ≤ field8 (record [(0, 8), (11, 8)]) 0x0B ∧
    field8 (record [(0, 8), (1, 31)]) 0x01 = (31 : Slot).val ∧ field8 (record [(0, 8), (11, 7)]) 0x0B = (7 : Port).val :=
  ⟨due_takeDue base 0 (record [(0, 8), (1, 31)]) rfl rfl, due_takeDue base 2 (record [(0, 8), (11, 7)]) rfl rfl,
    due_takeDue base 2 (record [(0, 0x17)]) rfl rfl, by decide, by decide, by decide, by decide⟩

theorem witness_ListVisitNotesTheListedPortsRecords :
    ∀ k ∈ [(0 : Slot), 30, 31],
      let w : Walk := { issuer := 0, next := k, ticks := 0, kind := .list 0 0 [] }
      let s := { (put (sample 0) base) with walk := some w }
      s.rstLow = false ∧ s.walk = some w ∧ (0 : Slot) ≤ w.next ∧ (s.liveAt w.next = none ∨ s.liveAt w.next = some (sample 0)) ∧
        (k.val = 31 ∨ nextSlot k ≠ none) := by decide

theorem witness_ResetTableVisitRetiresTheRecord :
    ∀ k ∈ [(0 : Slot), 30, 31], ∀ d ∈ [true, false],
      let w : Walk := { issuer := 2, next := k, ticks := 0, kind := .resetTable 0 d }
      let s := { (put (sample 0) base) with walk := some w }
      s.rstLow = false ∧ s.walk = some w ∧ w.kind = .resetTable 0 d ∧ (k.val = 31 ∨ nextSlot k ≠ none) := by decide

theorem witness_SuspendAndResumeMoveTheCommandCause :
    (due (put (sample 0) base) 2 (record [(0, 0x12)])).takeDue base.supervisor [] (record [(0, 0x12)]) 0x12 ∧
    (due (put (sample 0) base) 2 (record [(0, 0x13)])).takeDue base.supervisor [] (record [(0, 0x13)]) 0x13 ∧
    handleField (record [(0, 0x12)]) = h0 ∧ handleField (record [(0, 0x13)]) = h0 ∧ base.fresh h0 = none ∧
    ∀ r ∈ [sample 0, { sample 0 with state := .lapsed, credit := 0, leaseRemaining := 0 },
        { sample 0 with state := .suspended, credit := 0, causes := { command := true, fence := false } },
        { sample 0 with state := .suspended, credit := 0, causes := { command := true, fence := true } }],
      (put r base).fresh h0 = some r :=
  ⟨due_takeDue (put (sample 0) base) 2 (record [(0, 0x12)]) rfl rfl,
    due_takeDue (put (sample 0) base) 2 (record [(0, 0x13)]) rfl rfl, by decide, by decide, by decide, by decide⟩

theorem witness_DemoteSetsEveryPointer :
    (due base 2 (record [(0, 0x14), (11, 7)])).takeDue base.supervisor [] (record [(0, 0x14), (11, 7)]) 0x14 ∧
    8 ≤ field8 (record [(0, 0x14), (11, 8)]) 0x0B ∧ field8 (record [(0, 0x14), (11, 7)]) 0x0B = (7 : Port).val :=
  ⟨due_takeDue base 2 (record [(0, 0x14), (11, 7)]) rfl rfl, by decide, by decide⟩

theorem witness_ClearFenceReturnsThePort :
    (due (base.setPortState 1 .fenced) 2 (record [(0, 0x15), (11, 1)])).takeDue base.supervisor []
      (record [(0, 0x15), (11, 1)]) 0x15 ∧
    8 ≤ field8 (record [(0, 0x15), (11, 8)]) 0x0B ∧ field8 (record [(0, 0x15), (11, 1)]) 0x0B = (1 : Port).val ∧
    (base.port 1).state ≠ .fenced ∧ ((base.setPortState 1 .fenced).port 1).state = .fenced ∧
    (bankGet lived.req 1 = true ∧ bankGet base.req 1 = false ∧ (1 : Port) ≠ base.supervisor) ∧
    ∀ b ∈ [true, false],
      let r := { sample 1 with state := .suspended, credit := 0, causes := { command := b, fence := true } }
      (put r base).liveAt 0 = some r ∧ r.owner = 1 ∧ r.causes.fence = true ∧ r.causes.command = b :=
  ⟨due_takeDue (base.setPortState 1 .fenced) 2 (record [(0, 0x15), (11, 1)]) rfl rfl, by decide, by decide, by decide, by decide,
    by decide, by decide⟩

/-- The ranges' lower ends are accepted; a frame of 15 ticks is not. -/
theorem witness_SetFrameBecomesPending :
    (let c := record [(0, 0x16), (2, 1), (3, 16), (5, 16), (7, 1), (9, 1), (11, 1)]
     (due base 2 c).takeDue base.supervisor [] c 0x16 ∧ frameInRange (frameFields c) = true ∧
       (base.committed ≤ (frameFields c).capacity - (frameFields c).reserve ∧
         base.preemptTotal ≤ (frameFields c).capacity / 8) ∧
       ((frameFields c).capacity - (frameFields c).reserve < ({ base with committed := 241 } : State).committed) ∧
       (frameFields c).capacity / 8 < ({ base with preemptTotal := 33 } : State).preemptTotal) ∧
    frameInRange (frameFields (record [(0, 0x16), (2, 1), (3, 16), (5, 15), (7, 1), (9, 1), (11, 1)])) = false := by
  refine ⟨⟨due_takeDue base 2 _ rfl rfl, ?_, ?_, ?_, ?_⟩, ?_⟩ <;> decide

/-! ## The laws hold in a state with a record, a tenure and a waiting entry, and it has a next state -/

theorem lived_live (k : Slot) (r : Reservation) (h : lived.liveAt k = some r) : k = 0 ∧ r = sample 0 := by
  have all : ∀ k, lived.liveAt k = if k = 0 then some (sample 0) else none := by decide
  rw [all] at h
  by_cases hk : k = 0
  · simp [hk] at h; exact ⟨hk, h.symm⟩
  · simp [hk] at h

theorem lived_accountExact : lived.accountExact := by unfold State.accountExact; decide
theorem lived_limitsKept : lived.limitsKept := by
  have : lived.pendingConfig = none := rfl
  refine ⟨by unfold State.totalsFit; decide, fun f h => by simp [this] at h⟩
theorem lived_timeSound : lived.timeSound := by
  have : lived.pendingConfig = none := rfl
  refine ⟨by decide, fun f h => by simp [this] at h, by decide, by decide⟩
theorem lived_walkOnTime : lived.walkOnTime := by
  intro w h
  have : lived.walk = none := rfl
  simp [this] at h
theorem lived_recordsSound : lived.recordsSound := by
  intro k r h
  obtain ⟨-, rfl⟩ := lived_live k r h
  unfold Reservation.sound; simp [sample]
theorem lived_noticesSound : lived.noticesSound := by
  intro p
  have h : bankGet lived.notices p = NoticeSet.initial ∧ bankGet lived.latches p = Latch.initial := by revert p; decide
  exact ⟨by rw [h.1]; simp [NoticeSet.sound, NoticeSet.initial], fun _ => h⟩
theorem lived_busSound : lived.busSound := by
  have hc : lived.cycles = [] := by decide
  refine ⟨by decide, ?_, by simp [hc], by simp [hc], by decide, by simp [hc], by decide⟩
  intro t h
  have e : lived.tenure = some { spare 0 with drawing := some h0, standing := .one } := rfl
  rw [e] at h
  cases h
  have hp : (lived.port 0).state = .granted := by decide
  simp [State.tenureShape, spare, hp]
theorem lived_waitingSound : lived.waitingSound := by unfold State.waitingSound; decide
theorem lived_handlesSound : lived.handlesSound := by
  have own : lived.fresh h0 = some (sample 0) := by decide
  refine ⟨?_, ?_, ?_⟩
  · intro p c h hb
    have all : ∀ p c, lived.binding p c = if p = 0 ∧ c = 1 then some h0 else none := by decide
    rw [all] at hb
    split at hb
    · rename_i hp
      simp at hb
      subst hb
      exact ⟨_, own, by rw [hp.1]; rfl⟩
    · simp at hb
  · intro p e h hw hh
    have all : ∀ p, (bankGet lived.waiting p).bind (·.handle) = none := by decide
    have := all p
    simp [hw, hh] at this
  · intro t h ht hd
    have e : lived.tenure = some { spare 0 with drawing := some h0, standing := .one } := rfl
    rw [e] at ht
    cases ht
    cases hd
    exact ⟨_, own, rfl, rfl⟩
theorem lived_commandsSound : lived.commandsSound := by
  have hw : lived.walk = none := rfl
  have all : ∀ p, lived.slot p = CommandSlot.initial := by decide
  refine ⟨by decide, by decide, ?_, by decide, ?_⟩ <;> intro p <;>
    simp [all, hw, CommandSlot.initial, CommandSlot.replySound]
theorem lived_ownersSound : lived.ownersSound := by
  refine ⟨?_, by decide, by decide⟩
  intro k r h
  obtain ⟨-, rfl⟩ := lived_live k r h
  decide
theorem lived_yieldsAsked : lived.yieldsAsked := by
  intro t h _
  have e : lived.tenure = some { spare 0 with drawing := some h0, standing := .one } := rfl
  rw [e] at h
  cases h
  decide

/-- The premises of every invariant together: the laws above, and a next state that differs. -/
theorem witness_invariants : ∃ t, step lived = .next t ∧ t ≠ lived := by
  obtain ⟨t, h, hp⟩ := exec_next .tick { lived with pending := [] }
  refine ⟨t, h, fun e => ?_⟩
  rw [e] at hp
  exact absurd hp (by decide)

end Sys2Proof.Tests
end

namespace Sys2Proof.Machine

/-! # The use of the table

The invariants of records, handles and owners read six things of a state. `State.use` is the view of them, each shared
operation is an update of the view, and `Use.Change` says once what a step can do to it. -/

/-- What the invariants of records, handles and owners read: the records, the holders of handles, which ports are
attached, and the queued ports. -/
structure Use where
  table : Vector TableRecord 32
  bindings : Vector (Vector (Option Handle) 4) 8
  waiting : Vector (Option WaitingEntry) 8
  /-- the holder of the tenure in progress with its drawing reservation -/
  tenant : Option (Port × Option Handle)
  attached : Vector Bool 8
  queue : List Port

/-- The port is attached (R123). -/
def PortRecord.present (r : PortRecord) : Bool := decide (r.state ≠ .detached)

/-- The view of a state. -/
def State.use (s : State) : Use where
  table := s.table
  bindings := s.bindings
  waiting := s.waiting
  tenant := s.tenure.map fun t => (t.holder, t.drawing)
  attached := bankMap (fun _ r => r.present) s.ports
  queue := s.cmdQueue

namespace Use

/-- The live reservation in a slot, if any. -/
def liveAt (u : Use) (k : Slot) : Option Reservation := (bankGet u.table k).live

/-- The handle of a slot (R8). -/
def handleAt (u : Use) (k : Slot) : Handle := { slot := k, generation := (bankGet u.table k).generation }

/-- The reservation a handle names if it is fresh (R9). -/
def fresh (u : Use) (h : Handle) : Option Reservation :=
  if (bankGet u.table h.slot).generation = h.generation then u.liveAt h.slot else none

/-- The owned count of a port (R2). -/
def owned (u : Use) (p : Port) : Nat := allSlots.countP fun k => (u.liveAt k).any fun r => decide (r.owner = p)

/-- The view with a slot's live fields replaced. -/
def setLive (u : Use) (k : Slot) (r : Reservation) : Use :=
  { u with table := bankSet u.table k ((bankGet u.table k).holding r) }

/-- The view with a handle withdrawn from the tenure that draws on it (R108). -/
def withdraw (u : Use) (h : Handle) : Use :=
  { u with tenant := u.tenant.map fun x => if x.2 = some h then (x.1, none) else x }

/-- The view with the live record of a slot retired (R25, R26). -/
def retire (u : Use) (k : Slot) (r : Reservation) : Use :=
  withdraw
    { u with
      table := bankSet u.table k { generation := (bankGet u.table k).generation + 1, live := none }
      bindings := bankSet u.bindings r.owner (bankMap (fun _ => dropBinding (u.handleAt k)) (bankGet u.bindings r.owner))
      waiting := bankMap (fun _ => dropWaiting (u.handleAt k)) u.waiting }
    (u.handleAt k)

/-- The view with a port attached or detached. -/
def setAttached (u : Use) (p : Port) (b : Bool) : Use := { u with attached := bankSet u.attached p b }

end Use

/-! ## The view of each update -/

@[simp] theorem State.use_liveAt (s : State) (k : Slot) : s.use.liveAt k = s.liveAt k := rfl
@[simp] theorem State.use_fresh (s : State) (h : Handle) : s.use.fresh h = s.fresh h := rfl
@[simp] theorem State.use_owned (s : State) (p : Port) : s.use.owned p = s.owned p := rfl

@[simp] theorem State.use_attached (s : State) (p : Port) :
    bankGet s.use.attached p = true ↔ (s.port p).state ≠ .detached := by
  simp [State.use, State.port, PortRecord.present]

theorem State.use_setPort (s : State) (p : Port) (r : PortRecord) :
    (s.setPort p r).use = s.use.setAttached p r.present := by
  simp only [State.use, Use.setAttached, State.setPort, Use.mk.injEq, true_and, and_true]
  apply bank_ext
  intro i
  by_cases hi : i = p <;> simp [bankGet_bankSet, hi]

/-- Marking a port as it stands changes nothing. -/
theorem Use.setAttached_self (u : Use) (p : Port) (b : Bool) (h : bankGet u.attached p = b) : u.setAttached p b = u := by
  subst h; simp [Use.setAttached]

/-- A port record replaced by one that is attached exactly when it was leaves the view. -/
theorem State.use_setPort_same (s : State) (p : Port) (r : PortRecord) (h : r.present = (s.port p).present) :
    (s.setPort p r).use = s.use := by
  rw [s.use_setPort, h]
  exact s.use.setAttached_self p _ (by simp [State.use, State.port])

theorem State.use_setPortState (s : State) (p : Port) (x : PortState) :
    (s.setPortState p x).use = s.use.setAttached p (decide (x ≠ .detached)) := s.use_setPort p _

@[simp] theorem State.use_setLive (s : State) (k : Slot) (r : Reservation) :
    (s.setLive k r).use = s.use.setLive k r := rfl

theorem State.use_assertYield (s : State) (t : Tenure) (r : YieldReason) (ht : s.tenure = some t)
    (h : s.mayYield t = true) : (s.assertYield t r).use = s.use := by
  have hg : (s.port t.holder).state = .granted := by simp [State.mayYield] at h; exact h.1
  rw [State.assertYield, State.use_setPort_same]
  · simp [State.use, State.setTenure, ht]
  · change true = (s.port t.holder).present
    simp [PortRecord.present, hg]

@[simp] theorem State.use_raiseYield (s : State) (r : YieldReason) : (s.raiseYield r).use = s.use := by
  unfold State.raiseYield
  split
  · rfl
  · rename_i t ht
    split
    · rename_i hm; exact s.use_assertYield t r ht hm
    · rfl

@[simp] theorem State.use_testYield (s : State) : s.testYield.use = s.use := by
  rcases s.testYield_cases with ⟨t, r, ht, hm, _, h⟩ | ⟨h, _⟩
  · rw [h, s.use_assertYield t r ht hm]
  · rw [h]

@[simp] theorem State.use_withdrawDrawing (s : State) (h : Handle) (cls : ResClass) :
    (s.withdrawDrawing h cls).use = s.use.withdraw h := by
  unfold State.withdrawDrawing
  split
  · rename_i ht; simp [State.use, Use.withdraw, ht]
  · rename_i t ht
    by_cases hd : t.drawing = some h
    · have e : (s.setTenure (some { t with drawing := none, standing := .three })).use = s.use.withdraw h := by
        simp [State.use, Use.withdraw, State.setTenure, ht, hd]
      cases cls <;> simp [hd, e]
    · simp [hd, State.use, Use.withdraw, ht]

@[simp] theorem State.use_refillStanding (s : State) (h : Handle) (cls : ResClass) :
    (s.refillStanding h cls).use = s.use := by
  unfold State.refillStanding
  split
  · rfl
  · rename_i t ht
    split
    · simp [State.use, State.setTenure, ht]
    · rfl

theorem State.use_endTenure (s : State) (p : Port) (x : PortState) :
    (s.endTenure p x).use = { s.use.setAttached p (decide (x ≠ .detached)) with tenant := none } := by
  rw [← s.use_setPortState p x]; rfl

@[simp] theorem State.use_retireRecord_live (s : State) (k : Slot) (r : Reservation) (h : s.liveAt k = some r) :
    (s.retireRecord k).use = s.use.retire k r := by
  unfold State.retireRecord
  rw [h]
  exact State.use_withdrawDrawing _ _ _

@[simp] theorem State.use_place (s : State) (p : Port) (k : NoticeKind) (x : Subject) : (s.place p k x).use = s.use := by
  obtain ⟨a, h⟩ := s.place_frame p k x; rw [h]; rfl

@[simp] theorem State.use_placeIf (s : State) (p : Port) (k : Option NoticeKind) (x : Subject) :
    (s.placeIf p k x).use = s.use := by
  obtain ⟨a, h⟩ := s.placeIf_frame p k x; rw [h]; rfl

@[simp] theorem State.use_placeTableReset (s : State) : s.placeTableReset.use = s.use := by
  obtain ⟨a, h⟩ := s.placeTableReset_frame; rw [h]; rfl

@[simp] theorem State.use_complete (s : State) (p : Port) (x : ReplyStatus) (n : Nat) (bs : List Byte) :
    (s.complete p x n bs).use = s.use := by
  obtain ⟨a, h⟩ := s.complete_frame p x n bs; rw [h]; rfl

@[simp] theorem State.use_refuse (s : State) (p : Port) (x : ReplyStatus) : (s.refuse p x).use = s.use := by
  simp [State.refuse]

@[simp] theorem State.use_replaceContribution (s : State) (a b : Reservation) :
    (s.replaceContribution a b).use = s.use := rfl

@[simp] theorem State.use_setWalk (s : State) (w : Option Walk) : ({ s with walk := w } : State).use = s.use := rfl

theorem State.use_setTenure_same (s : State) (t t' : Tenure) (ht : s.tenure = some t) (hh : t'.holder = t.holder)
    (hd : t'.drawing = t.drawing) : (s.setTenure (some t')).use = s.use := by
  simp [State.use, State.setTenure, ht, hh, hd]

/-! ## The records after an update of the view -/

namespace Use

theorem liveAt_setLive (u : Use) (k j : Slot) (r : Reservation) :
    (u.setLive k r).liveAt j = if j = k then some r else u.liveAt j := by
  by_cases h : j = k <;> simp [liveAt, setLive, bankGet_bankSet, h, TableRecord.holding]

theorem generation_setLive (u : Use) (k j : Slot) (r : Reservation) :
    (bankGet (u.setLive k r).table j).generation = (bankGet u.table j).generation := by
  by_cases h : j = k <;> simp [setLive, bankGet_bankSet, h, TableRecord.holding]

theorem liveAt_retire (u : Use) (k j : Slot) (r : Reservation) :
    (u.retire k r).liveAt j = if j = k then none else u.liveAt j := by
  by_cases h : j = k <;> simp [liveAt, retire, withdraw, bankGet_bankSet, h]

theorem fresh_setLive (u : Use) (k : Slot) (r : Reservation) (h : Handle) :
    (u.setLive k r).fresh h = if h = u.handleAt k then some r else if h.slot = k then none else u.fresh h := by
  obtain ⟨j, g⟩ := h
  by_cases hj : j = k
  · subst hj
    by_cases hg : (bankGet u.table j).generation = g
    · subst hg; simp [fresh, generation_setLive, liveAt_setLive, handleAt]
    · simp [fresh, generation_setLive, handleAt, hg, Ne.symm hg]
  · simp [fresh, generation_setLive, liveAt_setLive, handleAt, hj]

/-- A fresh handle is the handle of its slot. -/
theorem fresh_eq_some (u : Use) (h : Handle) (r : Reservation) :
    u.fresh h = some r ↔ h = u.handleAt h.slot ∧ u.liveAt h.slot = some r := by
  obtain ⟨j, g⟩ := h
  by_cases hg : (bankGet u.table j).generation = g
  · simp [fresh, handleAt, hg]
  · simp [fresh, handleAt, hg, Ne.symm hg]

theorem generation_retire (u : Use) (k j : Slot) (r : Reservation) :
    (bankGet (u.retire k r).table j).generation =
      if j = k then (bankGet u.table k).generation + 1 else (bankGet u.table j).generation := by
  by_cases h : j = k <;> simp [retire, withdraw, bankGet_bankSet, h]

/-- Retirement makes the handles of its slot stale and leaves the others as they are (R9, R25). -/
theorem fresh_retire (u : Use) (k : Slot) (r : Reservation) (h : Handle) :
    (u.retire k r).fresh h = if h.slot = k then none else u.fresh h := by
  by_cases hk : h.slot = k <;> simp [fresh, liveAt_retire, generation_retire, hk]

end Use

end Sys2Proof.Machine

namespace Sys2Proof.Machine

/-! # What an event makes of one record -/

/-- A record that an event has changed: of the same owner, and within the laws of R1 to R18 if it was. -/
def Reservation.Becomes (r r' : Reservation) : Prop := r'.owner = r.owner ∧ (r.sound → r'.sound)

theorem Reservation.Becomes.refl (r : Reservation) : r.Becomes r := ⟨rfl, id⟩

theorem Reservation.Becomes.trans {a b c : Reservation} (h : a.Becomes b) (h' : b.Becomes c) : a.Becomes c :=
  ⟨h'.1.trans h.1, fun x => h'.2 (h.2 x)⟩

/-- A record whose credit falls keeps its laws (R21). -/
theorem becomes_charged (r : Reservation) (n : Nat) : r.Becomes { r with credit := r.credit - n } := by
  refine ⟨rfl, ?_⟩
  simp only [Reservation.sound]
  rintro ⟨hs, hp, hm, hpre, hl, hrem, hsf, hc, hc0, hcause, hlr, hlapsed⟩
  exact ⟨hs, hp, hm, hpre, hl, hrem, hsf, by omega, fun h => by simp [hc0 h], hcause, hlr, hlapsed⟩

/-- A fence keeps the laws (R15). -/
theorem becomes_fenced (p : Port) (r : Reservation) : r.Becomes (fenceReservation p r) := by
  unfold fenceReservation
  split
  · split
    all_goals
      rename_i hst
      refine ⟨rfl, ?_⟩
      simp_all [Reservation.sound]
  · exact .refl r

/-- SUSPEND keeps the laws of a record that is not LAPSED (R14). -/
theorem becomes_suspended (r : Reservation) (h : r.state ≠ .lapsed) : r.Becomes (suspendReservation r) := by
  refine ⟨rfl, ?_⟩
  cases hst : r.state <;> simp_all [Reservation.sound, suspendReservation]

/-- RESUME keeps the laws of a record that holds COMMAND (R16). -/
theorem becomes_resumed (r : Reservation) (h : r.causes.command = true) : r.Becomes (resumeReservation r) := by
  refine ⟨rfl, ?_⟩
  cases hf : r.causes.fence <;> cases hst : r.state <;> simp_all [Reservation.sound, resumeReservation]

/-- The clearing of a fence keeps the laws of a record that holds FENCE (R17). -/
theorem becomes_cleared (r : Reservation) (h : r.causes.fence = true) : r.Becomes (clearFenceReservation r) := by
  unfold clearFenceReservation
  split <;> refine ⟨rfl, ?_⟩ <;> cases hst : r.state <;> simp_all [Reservation.sound]

/-- RENEW keeps the laws (R19). -/
theorem becomes_renewed (fenced : Bool) (r : Reservation) : r.Becomes (renewReservation fenced r) := by
  unfold renewReservation
  split
  · exact .refl r
  · split
    · refine ⟨rfl, ?_⟩; simp_all [Reservation.sound]
    · refine ⟨rfl, ?_⟩; simp_all [Reservation.sound]
    · split <;> refine ⟨rfl, ?_⟩ <;> simp_all [Reservation.sound]

/-- A pending share put in force keeps the laws where the credit is then set within the share (R59). -/
theorem becomes_applied (r : Reservation) (n : Nat) (hn : n ≤ (applyPending r).share) (h0 : r.state ≠ .active → n = 0) :
    r.Becomes { applyPending r with credit := n } := by
  cases hp : r.pendingShare with
  | none =>
    simp only [applyPending, hp] at hn ⊢
    refine ⟨rfl, ?_⟩
    simp_all [Reservation.sound]
  | some m =>
    simp only [applyPending, hp] at hn ⊢
    refine ⟨rfl, ?_⟩
    simp_all [Reservation.sound]

/-- A shortfall counted keeps the laws (R57). -/
theorem becomes_short (r : Reservation) : r.Becomes { r with shortfall := min 255 (r.shortfall + 1) } := by
  refine ⟨rfl, ?_⟩
  simp only [Reservation.sound]
  rintro ⟨hs, hp, hm, hpre, hl, hrem, -, hrest⟩
  exact ⟨hs, hp, hm, hpre, hl, hrem, Nat.min_le_left _ _, hrest⟩

/-- The lease count keeps the laws of an ACTIVE record (R62). -/
theorem becomes_counted (r : Reservation) (h : r.state = .active) : r.Becomes (countLease r).1 := by
  unfold countLease
  split
  · exact .refl r
  · split
    · refine ⟨rfl, ?_⟩; simp_all [Reservation.sound]
    · split
      · refine ⟨rfl, ?_⟩; simp_all [Reservation.sound]
      · refine ⟨rfl, ?_⟩
        simp_all [Reservation.sound]
        omega

end Sys2Proof.Machine

namespace Sys2Proof.Machine

/-! ## The terms of an opening -/

theorem classOfCode_eq_some (n : Nat) (x : ResClass) :
    classOfCode n = some x ↔ n ≤ 1 ∧ x = if n = 0 then .fixed else .elastic := by
  unfold classOfCode
  split
  · simp_all [eq_comm]
  · split
    · simp_all [eq_comm]
    · simp; omega

theorem preemptOfCode_eq_some (n : Nat) (x : Bool) : preemptOfCode n = some x ↔ n ≤ 1 ∧ x = decide (n = 1) := by
  unfold preemptOfCode
  split
  · simp_all [eq_comm]
  · split
    · simp_all [eq_comm]
    · simp; omega

theorem priorityOfCode_eq_some (n : Nat) (x : Fin 4) : priorityOfCode n = some x ↔ n ≤ 3 ∧ x = Fin.ofNat 4 n := by
  unfold priorityOfCode
  split
  · rename_i h
    have e : (⟨n, h⟩ : Fin 4) = Fin.ofNat 4 n := Fin.ext (by simp [Nat.mod_eq_of_lt h])
    rw [e]
    simp [eq_comm]
    omega
  · simp; omega

theorem openTermsInRange_iff (permanentOk : Bool) (t : OpenTerms) :
    openTermsInRange permanentOk t = true ↔
      1 ≤ t.share ∧ 1 ≤ t.maxTenure ∧ t.maxTenure ≤ 1023 ∧ (t.preempt = true → t.cls = .fixed ∧ t.maxTenure ≤ 32) ∧
        (permanentOk = true ∨ 1 ≤ t.leaseLength) := by
  cases hp : t.preempt <;> cases permanentOk <;> simp [openTermsInRange, hp, and_assoc, Nat.succ_le_iff]

/-- The terms as the bytes spell them, before any check (R198). -/
def spelledTerms (c : Vector Byte 16) : OpenTerms :=
  { cls := if field8 c 0x01 = 0 then .fixed else .elastic
    preempt := decide (field8 c 0x02 = 1)
    share := field16 c 0x03, maxTenure := field16 c 0x05, priority := Fin.ofNat 4 (field8 c 0x07)
    leaseLength := field8 c 0x08, tag := BitVec.ofNat 16 (field16 c 0x09) }

theorem openTerms_eq_some (permanentOk : Bool) (c : Vector Byte 16) (x : OpenTerms) :
    openTerms permanentOk c = some x ↔
      field8 c 0x01 ≤ 1 ∧ field8 c 0x02 ≤ 1 ∧ field8 c 0x07 ≤ 3 ∧ x = spelledTerms c ∧
        openTermsInRange permanentOk x = true := by
  by_cases h : field8 c 0x01 ≤ 1 ∧ field8 c 0x02 ≤ 1 ∧ field8 c 0x07 ≤ 3
  · obtain ⟨h1, h2, h3⟩ := h
    have e : openTerms permanentOk c =
        if openTermsInRange permanentOk (spelledTerms c) then some (spelledTerms c) else none := by
      rw [openTerms, (classOfCode_eq_some _ _).2 ⟨h1, rfl⟩, (preemptOfCode_eq_some _ _).2 ⟨h2, rfl⟩,
        (priorityOfCode_eq_some _ _).2 ⟨h3, rfl⟩]
      rfl
    rw [e]
    by_cases hr : openTermsInRange permanentOk (spelledTerms c) = true
    · simp only [hr, if_true, Option.some.injEq, h1, h2, h3, true_and]
      exact ⟨fun hx => ⟨hx.symm, hx ▸ hr⟩, fun hx => hx.1.symm⟩
    · simp only [hr, if_false, reduceCtorEq, false_iff]
      rintro ⟨-, -, -, rfl, hx⟩
      exact hr hx
  · have e : openTerms permanentOk c = none := by
      unfold openTerms
      split
      · rename_i a b d h1 h2 h3
        exact absurd ⟨((classOfCode_eq_some _ _).1 h1).1, ((preemptOfCode_eq_some _ _).1 h2).1,
          ((priorityOfCode_eq_some _ _).1 h3).1⟩ h
      · rfl
    simp only [e, reduceCtorEq, false_iff]
    rintro ⟨h1, h2, h3, -⟩
    exact h ⟨h1, h2, h3⟩

/-- Settles O34: the code readers answer exactly within their codes, and the rest is the range check of R159. -/
theorem openingTermsAcceptedInRange : Obligations.OpeningTermsAcceptedInRange := by
  intro permanentOk c x
  rw [openTerms_eq_some, openTermsInRange_iff]
  rfl

theorem field8_lt (c : Vector Byte 16) (i : Nat) : field8 c i < 256 := (byteAt c i).isLt

/-- An opening with accepted terms writes a record within the laws (R12). -/
theorem opened_sound (permanentOk : Bool) (c : Vector Byte 16) (t : OpenTerms) (h : openTerms permanentOk c = some t)
    (owner : Port) (fenced : Bool) : (openedReservation owner t fenced).sound := by
  obtain ⟨-, -, -, rfl, hr⟩ := (openTerms_eq_some permanentOk c t).1 h
  obtain ⟨hs, hm, hm', hp, -⟩ := (openTermsInRange_iff permanentOk _).1 hr
  have h1 : (spelledTerms c).share < 65536 := field16_lt c 3
  have h2 : (spelledTerms c).leaseLength < 256 := field8_lt c 8
  generalize spelledTerms c = t at *
  cases fenced <;> simp [Reservation.sound, openedReservation] <;>
    exact ⟨⟨hs, by omega⟩, ⟨hm, hm'⟩, hp, by omega⟩

/-! ## The changes of a MODIFY -/

theorem namedOk_iff (v : Option Nat) (ok : Nat → Bool) : namedOk v ok = true ↔ ∀ n, v = some n → ok n = true := by
  cases v <;> simp [namedOk]

/-- A MODIFY that passes its checks keeps the laws (R162, R163). -/
theorem becomes_changed (c : Vector Byte 16) (r : Reservation) (hc : changesInRange c = true)
    (hp : preemptForbids (rawChanges c) r = false)
    (hw : ¬(r.state = .lapsed ∨ ((rawChanges c).leaseLength.isSome = true ∧ r.leaseLength = 0))) :
    r.Becomes (changeReservation (rawChanges c) r) := by
  refine ⟨rfl, ?_⟩
  have share_lt : ∀ n, (rawChanges c).share = some n → n ≤ 65535 := by
    intro n hn
    simp only [rawChanges] at hn
    split at hn <;> simp at hn
    have := field16_lt c 3
    omega
  have lease_lt : ∀ n, (rawChanges c).leaseLength = some n → n ≤ 255 := by
    intro n hn
    simp only [rawChanges] at hn
    split at hn <;> simp at hn
    have := field8_lt c 8
    omega
  simp only [changesInRange, Bool.and_eq_true, namedOk_iff, decide_eq_true_eq] at hc
  obtain ⟨⟨⟨⟨-, hshare⟩, hten⟩, -⟩, hlease⟩ := hc
  simp only [preemptForbids] at hp
  generalize rawChanges c = ch at *
  simp only [Reservation.sound, changeReservation]
  rintro ⟨hs, hpend, hm, hpre, hl, hrem, hsf, hcr, hc0, hcause, hlr, hlapsed⟩
  push Not at hw
  have hpend' : ∀ n, newPending ch r = some n → 1 ≤ n ∧ n ≤ 65535 := by
    intro n hn
    unfold newPending at hn
    split at hn
    · exact hpend n hn
    · rename_i m hch
      split at hn <;> simp at hn
      subst hn
      exact ⟨hshare _ hch, share_lt _ hch⟩
  have hm' : 1 ≤ ch.maxTenure.getD r.maxTenure ∧ ch.maxTenure.getD r.maxTenure ≤ 1023 := by
    cases hch : ch.maxTenure with
    | none => exact hm
    | some n => exact hten n hch
  have hpre' : r.preempt = true → r.cls = .fixed ∧ ch.maxTenure.getD r.maxTenure ≤ 32 := by
    intro h
    refine ⟨(hpre h).1, ?_⟩
    cases hch : ch.maxTenure with
    | none => exact (hpre h).2
    | some n => simpa [h, hch] using hp
  have hl' : ch.leaseLength.getD r.leaseLength ≤ 255 ∧ (ch.leaseLength.getD r.leaseLength = 0 ↔ r.leaseLength = 0) := by
    cases hch : ch.leaseLength with
    | none => exact ⟨hl, Iff.rfl⟩
    | some n =>
      have := hw.2 (by simp [hch])
      have := hlease n hch
      exact ⟨lease_lt n hch, by simp; omega⟩
  exact ⟨hs, hpend', hm', hpre', hl'.1, hrem, hsf, hcr, hc0, hcause, by rw [hlr, hl'.2], fun h => absurd h hw.1⟩

end Sys2Proof.Machine

namespace Sys2Proof.Machine

/-! # What an event does to the view -/

/-- The changes of the view, each with what makes it lawful; every event but the acceptance of a trigger is a chain of
them. -/
inductive Use.Change : Use → Use → Prop
  /-- Nothing the view holds changes. -/
  | refl (u : Use) : Change u u
  /-- One change after another. -/
  | trans {u v w : Use} : Change u v → Change v w → Change u w
  /-- A live record is retired (R25, R26). -/
  | retire (u : Use) (k : Slot) (r : Reservation) (h : u.liveAt k = some r) : Change u (u.retire k r)
  /-- A live record changes within its laws; one on which the tenure draws stays ACTIVE (R108). -/
  | alter (u : Use) (k : Slot) (r r' : Reservation) (h : u.liveAt k = some r) (hb : r.Becomes r')
      (ha : r.state = .active → r'.state = .active ∨ ∀ p, u.tenant ≠ some (p, some (u.handleAt k))) :
      Change u (u.setLive k r')
  /-- The take of an opening writes a FREE slot, for an attached or queued owner of fewer than eight (R11, R12). -/
  | opening (u : Use) (k : Slot) (r : Reservation) (l : List Port) (h : u.liveAt k = none) (hs : r.sound)
      (ho : bankGet u.attached r.owner = true ∨ r.owner ∈ u.queue) (hn : u.owned r.owner < 8)
      (hl : ∀ p ∈ l, p ∈ u.queue) : Change u { u.setLive k r with queue := l }
  /-- The tenure ends (R97). -/
  | endTenure (u : Use) : Change u { u with tenant := none }
  /-- A handle is withdrawn from the tenure (R108). -/
  | withdraw (u : Use) (h : Handle) : Change u (u.withdraw h)
  /-- A port is granted the bus, drawing on the ACTIVE record of its entry or on none (R91). -/
  | grant (u : Use) (p : Port) (d : Option Handle)
      (hd : ∀ h, d = some h → (∃ e, bankGet u.waiting p = some e ∧ e.handle = some h) ∧
        ∃ r, u.fresh h = some r ∧ r.state = .active) :
      Change u { u with tenant := some (p, d), waiting := bankSet u.waiting p none }
  /-- A waiting entry is removed (R80). -/
  | leave (u : Use) (p : Port) : Change u { u with waiting := bankSet u.waiting p none }
  /-- A waiting entry is made with the bound handle (R78). -/
  | enter (u : Use) (p : Port) (c : SelCode) :
      Change u { u with waiting := bankSet u.waiting p (some { handle := bankGet (bankGet u.bindings p) c }) }
  /-- A code is bound to a live record of the port (R74). -/
  | bind (u : Use) (p : Port) (c : SelCode) (h : Handle) (r : Reservation) (hf : u.fresh h = some r) (ho : r.owner = p) :
      Change u { u with bindings := bankSet u.bindings p (bankSet (bankGet u.bindings p) c (some h)) }
  /-- Codes are unbound (R75, R76). -/
  | unbind (u : Use) (b : Vector (Vector (Option Handle) 4) 8)
      (hb : ∀ p c, bankGet (bankGet b p) c = bankGet (bankGet u.bindings p) c ∨ bankGet (bankGet b p) c = none) :
      Change u { u with bindings := b }
  /-- Ports leave the command queue (R130, R147). -/
  | dequeue (u : Use) (l : List Port) (hl : ∀ p ∈ l, p ∈ u.queue) : Change u { u with queue := l }
  /-- A port is attached (R126). -/
  | attach (u : Use) (p : Port) : Change u (u.setAttached p true)
  /-- A port that owns nothing and is not queued is detached (R129, R130). -/
  | depart (u : Use) (p : Port) (ho : ∀ k r, u.liveAt k = some r → r.owner ≠ p) (hq : p ∉ u.queue) :
      Change u (u.setAttached p false)
  /-- Every record, binding, entry, tenure and queued command is abandoned (R125). -/
  | reset (u v : Use) (ht : ∀ k, v.liveAt k = none) (hb : ∀ p c, bankGet (bankGet v.bindings p) c = none)
      (hw : ∀ p, bankGet v.waiting p = none) (hd : v.tenant = none) (hq : v.queue = []) : Change u v

/-- An event changes the view lawfully. -/
def State.changes (s t : State) : Prop := s.use.Change t.use

theorem State.changes.refl (s : State) : s.changes s := Use.Change.refl _

theorem State.changes.trans {s t v : State} (h : s.changes t) (h' : t.changes v) : s.changes v := Use.Change.trans h h'

theorem State.changes_of_use_eq {s t : State} (h : t.use = s.use) : s.changes t := by
  unfold State.changes; rw [h]; exact .refl _

/-! ## The shared operations -/

theorem State.testYield_changes (s : State) : s.changes s.testYield := State.changes_of_use_eq (by simp)

theorem State.retireRecord_changes (s : State) (k : Slot) : s.changes (s.retireRecord k) := by
  cases h : s.liveAt k with
  | none => rw [s.retireRecord_free k h]; exact .refl s
  | some r => rw [State.changes, s.use_retireRecord_live k r h]; exact .retire _ k r h

theorem State.retire_changes (s : State) (k : Slot) : s.changes (s.retire k) :=
  (s.retireRecord_changes k).trans (State.testYield_changes _)

/-- A record changed without a change of ACTIVE. -/
theorem State.setLive_changes (s : State) (k : Slot) (r r' : Reservation) (h : s.liveAt k = some r) (hb : r.Becomes r')
    (ha : r.state = .active → r'.state = .active) : s.changes (s.setLive k r') :=
  .alter _ k r r' h hb fun x => Or.inl (ha x)

/-- A record changed, and withdrawn from the tenure that draws on it (R108). -/
theorem State.setLive_withdraw_changes (s : State) (k : Slot) (r r' : Reservation) (h : s.liveAt k = some r)
    (hb : r.Becomes r') : s.use.Change ((s.use.setLive k r').withdraw (s.handleAt k)) := by
  refine .trans (.withdraw s.use (s.handleAt k)) (.alter (s.use.withdraw (s.handleAt k)) k r r' h hb fun _ => Or.inr ?_)
  intro p hp
  cases ht : s.use.tenant with
  | none => simp [Use.withdraw, ht] at hp
  | some x =>
    by_cases hx : x.2 = some (s.handleAt k)
    · simp [Use.withdraw, ht, hx] at hp
    · simp only [Use.withdraw, ht, Option.map_some, hx, if_false, Option.some.injEq] at hp
      exact hx (by rw [hp]; rfl)

theorem State.endTenure_changes (s : State) (p : Port) (x : PortState) (hx : x ≠ .detached) :
    s.changes (s.endTenure p x) := by
  have e : (s.endTenure p x).use = { s.use.setAttached p true with tenant := none } := by simp [s.use_endTenure, hx]
  unfold State.changes
  rw [e]
  exact .trans (.attach _ p) (.endTenure _)

theorem State.setPort_changes (s : State) (p : Port) (r : PortRecord) (h : r.state ≠ .detached) :
    s.changes (s.setPort p r) := by
  unfold State.changes
  rw [s.use_setPort]
  have e : r.present = true := by simp [PortRecord.present, h]
  rw [e]
  exact .attach _ p

theorem State.setPortState_changes (s : State) (p : Port) (x : PortState) (h : x ≠ .detached) :
    s.changes (s.setPortState p x) := s.setPort_changes p _ h

theorem State.makeEntry_changes (s : State) (p : Port) : s.changes (s.makeEntry p) := by
  refine State.changes.trans (t := s.setWaiting p _) (.enter s.use p (bankGet s.sel p)) ?_
  exact (State.setPortState_changes _ p .waiting (by decide)).trans (State.testYield_changes _)

theorem State.releaseBus_changes (s : State) (p : Port) : s.changes (s.releaseBus p) := by
  unfold State.releaseBus
  split
  · exact .refl s
  · rename_i t ht
    split
    · split
      · exact s.endTenure_changes p .idle (by decide)
      · refine State.changes.trans (State.changes_of_use_eq ?_) (State.setPortState_changes _ p .draining (by decide))
        exact s.use_setTenure_same t _ ht rfl rfl
    · exact .refl s

theorem State.requestFalls_changes (s : State) (p : Port) : s.changes (s.requestFalls p) := by
  have level : s.changes { s with req := bankSet s.req p false } := .refl _
  simp only [State.requestFalls]
  split
  · exact level
  · split
    · refine level.trans (State.changes.trans (t := State.setWaiting _ p none) (.leave _ p) ?_)
      exact (State.setPortState_changes _ p .idle (by decide)).trans (State.testYield_changes _)
    · exact level.trans (State.releaseBus_changes _ p)
    · exact level.trans (State.releaseBus_changes _ p)
    all_goals exact level

theorem State.liveAt_of_fresh (s : State) (h : Handle) (r : Reservation) (hf : s.fresh h = some r) :
    h = s.handleAt h.slot ∧ s.liveAt h.slot = some r := (s.use.fresh_eq_some h r).1 hf

theorem State.chargeRecord_changes (s : State) (h : Handle) (cost : Nat) : s.changes (s.chargeRecord h cost) := by
  unfold State.chargeRecord
  split
  · exact .refl s
  · rename_i r hf
    have written : s.changes (s.setLive h.slot { r with credit := r.credit - cost }) :=
      s.setLive_changes _ r _ (s.liveAt_of_fresh h r hf).2 (becomes_charged r cost) id
    dsimp only
    split
    · split
      · exact written.trans (State.changes_of_use_eq (by simp))
      · rename_i t _ ht
        exact written.trans (State.changes_of_use_eq (State.use_setTenure_same _ t _ ht rfl rfl))
      · exact written
    · exact written

theorem State.charge_changes (s : State) (cost : Nat) : s.changes (s.charge cost) := by
  unfold State.charge
  split
  · exact .refl s
  · rename_i t ht
    have counted : s.changes (s.setTenure (some { t with usage := min 65535 (t.usage + cost), idleTicks := 0 })) :=
      State.changes_of_use_eq (s.use_setTenure_same t _ ht rfl rfl)
    dsimp only
    split
    · exact counted.trans (State.testYield_changes _)
    · exact counted.trans ((State.chargeRecord_changes _ _ cost).trans (State.testYield_changes _))

theorem State.finishDrain_changes (s : State) : s.changes s.finishDrain := by
  unfold State.finishDrain
  split
  · exact .refl s
  · split
    · exact s.endTenure_changes _ .idle (by decide)
    · exact .refl s

/-! ## Fences and expiries -/

/-- A slot's record with its live fields, if any, changed. -/
def TableRecord.alter (f : Reservation → Reservation) (x : TableRecord) : TableRecord := { x with live := x.live.map f }

theorem TableRecord.alter_free (f : Reservation → Reservation) (x : TableRecord) (h : x.live = none) : x.alter f = x := by
  cases x; simp_all [TableRecord.alter]

theorem TableRecord.alter_live (f : Reservation → Reservation) (x : TableRecord) (r : Reservation) (h : x.live = some r) :
    x.alter f = x.holding (f r) := by
  cases x; simp_all [TableRecord.alter, TableRecord.holding]

/-- Records changed in every slot of a list, while no tenure is in progress. -/
theorem Use.Change.alterAll (f : Reservation → Reservation) (hf : ∀ r : Reservation, r.Becomes (f r)) (l : List Slot)
    (hl : l.Nodup) (u : Use) (hu : u.tenant = none) :
    u.Change { u with table := bankMap (fun k x => if k ∈ l then x.alter f else x) u.table } := by
  induction l generalizing u with
  | nil =>
    have e : bankMap (fun k x => if k ∈ ([] : List Slot) then x.alter f else x) u.table = u.table :=
      bank_ext fun k => by simp
    rw [e]
    exact .refl u
  | cons k l ih =>
    obtain ⟨hk, hl⟩ := List.nodup_cons.1 hl
    cases hlive : u.liveAt k with
    | none =>
      have e : bankMap (fun j x => if j ∈ k :: l then x.alter f else x) u.table =
          bankMap (fun j x => if j ∈ l then x.alter f else x) u.table := by
        refine bank_ext fun j => ?_
        by_cases hj : j = k
        · subst hj; simp [hk, TableRecord.alter_free f _ hlive]
        · simp [hj]
      rw [e]
      exact ih hl u hu
    | some r =>
      have e : bankMap (fun j x => if j ∈ k :: l then x.alter f else x) u.table =
          bankMap (fun j x => if j ∈ l then x.alter f else x) (u.setLive k (f r)).table := by
        refine bank_ext fun j => ?_
        by_cases hj : j = k
        · subst hj; simp [hk, Use.setLive, TableRecord.alter_live f _ r hlive]
        · simp [hj, Use.setLive, bankGet_bankSet_ne]
      rw [e]
      exact .trans (.alter u k r (f r) hlive (hf r) fun _ => Or.inr (by simp [hu])) (ih hl (u.setLive k (f r)) hu)

/-- A fence at every slot, after the end of the tenure (R15). -/
theorem State.fenceRecords_changes (s : State) (p : Port) (h : s.tenure = none) :
    s.changes { s with table := bankMap (fun _ => fenceRecord p) s.table } := by
  have fenced := Use.Change.alterAll (fenceReservation p) (becomes_fenced p) allSlots (List.nodup_finRange 32) s.use
    (by simp [State.use, h])
  have e : bankMap (fun k x => if k ∈ allSlots then x.alter (fenceReservation p) else x) s.use.table =
      bankMap (fun _ => fenceRecord p) s.table :=
    bank_ext fun k => by simp [allSlots]; rfl
  rw [e] at fenced
  exact fenced

theorem State.fencePort_changes (s : State) (p : Port) : s.changes (s.fencePort p) := by
  have ended := s.endTenure_changes p .fenced (by decide)
  have counted : (s.endTenure p .fenced).changes ((s.endTenure p .fenced).setPort p
      { (s.endTenure p .fenced).port p with fenceCount := min 15 (((s.endTenure p .fenced).port p).fenceCount + 1) }) :=
    State.changes_of_use_eq (State.use_setPort_same _ _ _ rfl)
  exact ended.trans (counted.trans ((State.fenceRecords_changes _ p rfl).trans (State.changes_of_use_eq
    ((State.use_place _ _ _ _).trans (State.use_place _ _ _ _)))))

theorem State.forceWithdrawal_changes (s : State) (p : Port) : s.changes (s.forceWithdrawal p) := by
  refine (s.endTenure_changes p .idle (by decide)).trans (State.changes_of_use_eq ?_)
  exact (State.use_place _ _ _ _).trans (State.use_setPort_same _ _ _ rfl)

theorem State.expireGrace_changes (s : State) (p : Port) : s.changes (s.expireGrace p) := by
  unfold State.expireGrace
  split
  · exact s.forceWithdrawal_changes p
  · exact s.fencePort_changes p

theorem State.expireDrain_changes (s : State) (p : Port) : s.changes (s.expireDrain p) :=
  (s.endTenure_changes p .idle (by decide)).trans (State.changes_of_use_eq (State.use_setPort_same _ _ _ rfl))

theorem State.use_raiseIdle (s : State) (t t' : Tenure) (ht : s.tenure = some t) (hh : t'.holder = (s.raiseIdle t).holder)
    (hd : t'.drawing = (s.raiseIdle t).drawing) : (s.setTenure (some t')).use = s.use := by
  refine s.use_setTenure_same t t' ht (hh.trans ?_) (hd.trans ?_) <;> unfold State.raiseIdle <;> split <;> rfl

theorem State.idleTick_changes (s : State) : s.changes s.idleTick := by
  unfold State.idleTick
  split
  · exact .refl s
  · rename_i t ht
    split
    · exact State.changes_of_use_eq ((State.use_testYield _).trans (s.use_raiseIdle t _ ht rfl rfl))
    · exact .refl s

theorem State.tenureTick_changes (s : State) : s.changes s.tenureTick := by
  unfold State.tenureTick
  split
  · exact s.expireGrace_changes _
  · exact s.expireDrain_changes _
  · exact .refl s
  · rename_i t _ _ ht
    split
    · exact State.changes_of_use_eq (s.use_raiseIdle t _ ht rfl rfl)
    · exact State.changes_of_use_eq (s.use_raiseIdle t _ ht rfl rfl)
    · exact s.idleTick_changes

theorem State.frameTick_changes (s : State) : s.changes s.frameTick := by
  unfold State.frameTick
  split <;> exact State.changes_of_use_eq rfl

/-! ## Visits -/

theorem State.visitActive_changes (s : State) (k : Slot) (r : Reservation) (h : s.liveAt k = some r)
    (hact : r.state = .active) : s.changes (s.visitActive k r) := by
  simp only [State.visitActive]
  set short := if s.shortfallMet (s.handleAt k) r = true then { r with shortfall := min 255 (r.shortfall + 1) } else r
    with hshort
  have hb : r.Becomes short := by
    rw [hshort]; split
    · exact becomes_short r
    · exact .refl r
  have hst : short.state = .active := by rw [hshort]; split <;> exact hact
  have happ : ({ applyPending short with credit := (applyPending short).share } : Reservation).state = .active := by
    unfold applyPending; split <;> exact hst
  have hbecomes : r.Becomes (countLease { applyPending short with credit := (applyPending short).share }).1 :=
    hb.trans ((becomes_applied short _ le_rfl fun x => absurd hst x).trans (becomes_counted _ happ))
  generalize hcount : countLease { applyPending short with credit := (applyPending short).share } = counted at *
  refine State.changes.trans ?_ (State.testYield_changes _)
  by_cases hl : counted.1.state = .lapsed
  · simp only [hl, if_true, State.changes, State.use_withdrawDrawing, State.use_placeIf, State.use_setLive,
      State.use_replaceContribution]
    exact s.setLive_withdraw_changes k r counted.1 h hbecomes
  · simp only [hl, if_false, State.changes, State.use_refillStanding, State.use_placeIf, State.use_setLive,
      State.use_replaceContribution]
    refine s.setLive_changes k r counted.1 h hbecomes fun _ => ?_
    rw [← hcount] at hl ⊢
    unfold countLease at hl ⊢
    split
    · exact happ
    · split
      · simp_all
      · split <;> exact happ

theorem State.visitSuspended_changes (s : State) (k : Slot) (r : Reservation) (h : s.liveAt k = some r)
    (hact : r.state = .suspended) : s.changes (s.visitSuspended k r) := by
  refine State.changes.trans (t := s.setLive k { applyPending r with credit := 0 }) ?_ (State.changes_of_use_eq ?_)
  · exact s.setLive_changes k r _ h (becomes_applied r 0 (Nat.zero_le _) fun _ => rfl) (by simp [hact])
  · simp [State.visitSuspended]

theorem State.visitLapsed_changes (s : State) (k : Slot) (r : Reservation) : s.changes (s.visitLapsed k r) :=
  (s.retireRecord_changes k).trans (State.changes_of_use_eq (by simp [State.visitLapsed]))

theorem State.sweepStep_changes (s : State) : s.changes s.sweepStep := by
  unfold State.sweepStep
  split
  · exact .refl s
  · rename_i k _
    refine State.changes.trans (t := s.visitSlot k) ?_ (.refl _)
    unfold State.visitSlot
    split
    · exact .refl s
    · rename_i r h
      split
      · rename_i hst; exact s.visitActive_changes k r h hst
      · rename_i hst; exact s.visitSuspended_changes k r h hst
      · exact s.visitLapsed_changes k r

theorem State.walkStep_changes (s : State) : s.changes s.walkStep := by
  unfold State.walkStep
  split
  · exact .refl s
  · rename_i w _
    split
    · simp only [State.listStep]
      split
      · exact .refl _
      · exact State.changes_of_use_eq (by simp)
    · simp only [State.resetTableStep]
      refine (s.retire_changes w.next).trans (State.changes_of_use_eq ?_)
      split
      · exact State.use_setWalk _ _
      · split
        · exact (State.use_setWalk _ _).trans (State.use_placeTableReset _)
        · simp

end Sys2Proof.Machine

namespace Sys2Proof.Machine

/-! ## Takes -/

/-- A take's body, run without the oldest port in the queue, changes the view lawfully. -/
def TakeChanges (body : Port → Vector Byte 16 → State → State) : Prop :=
  ∀ (s : State) (p : Port) (rest : List Port) (c : Vector Byte 16), s.cmdQueue = p :: rest →
    s.changes (body p c { s with cmdQueue := rest })

theorem State.refuse_changes (s : State) (p : Port) (x : ReplyStatus) : s.changes (s.refuse p x) :=
  State.changes_of_use_eq (by simp)

theorem State.changes.complete {s t : State} (h : s.changes t) (p : Port) (x : ReplyStatus) (n : Nat) (bs : List Byte) :
    s.changes (t.complete p x n bs) := h.trans (State.changes_of_use_eq (by simp))

theorem State.dequeue_changes (s : State) (p : Port) (rest : List Port) (h : s.cmdQueue = p :: rest) :
    s.changes { s with cmdQueue := rest } :=
  Use.Change.dequeue s.use rest fun q hq => by
    change q ∈ s.cmdQueue
    rw [h]; exact List.mem_cons_of_mem p hq

/-- A body that changes the view lawfully from every state does so without the oldest port in the queue. -/
theorem takeChanges_of_changes {body : Port → Vector Byte 16 → State → State}
    (h : ∀ p c (s : State), s.changes (body p c s)) : TakeChanges body :=
  fun s p rest c hq => (s.dequeue_changes p rest hq).trans (h p c _)

theorem TakeChanges.supervisorOnly {body : Port → Vector Byte 16 → State → State} (h : TakeChanges body) :
    TakeChanges (supervisorOnly body) := by
  intro s p rest c hq
  unfold Machine.supervisorOnly
  split
  · exact h s p rest c hq
  · exact (s.dequeue_changes p rest hq).trans (State.refuse_changes _ _ _)

theorem State.take_changes (s : State) (isCode : Byte → Bool) {body : Port → Vector Byte 16 → State → State}
    (h : TakeChanges body) : s.changes (s.take isCode body) := by
  rcases s.take_cases isCode body with e | ⟨p, rest, c, ⟨-, -, hq, -, -⟩, -, e⟩
  · rw [e]; exact .refl s
  · rw [e]; exact h s p rest c hq

theorem State.openingSlot_ok (s : State) (owner : Port) (t : OpenTerms) (k : Slot) (h : s.openingSlot owner t = .ok k) :
    s.liveAt k = none ∧ s.owned owner < 8 := by
  unfold State.openingSlot at h
  split at h
  · cases h
  · rename_i j hj
    split at h
    · cases h
    · rename_i hn
      split at h
      · cases h
      · cases h
        exact ⟨by simpa using List.find?_some hj, by simpa [Config.portLimit] using hn⟩

/-- An admitted opening of an attached or queued owner, with the oldest port out of the queue. -/
theorem State.admitOpening_changes (s : State) (rest : List Port) (k : Slot) (owner : Port) (permanentOk : Bool)
    (c : Vector Byte 16) (t : OpenTerms) (ht : openTerms permanentOk c = some t)
    (hk : State.openingSlot { s with cmdQueue := rest } owner t = .ok k)
    (ho : (s.port owner).state ≠ .detached ∨ owner ∈ s.cmdQueue) (hl : ∀ p ∈ rest, p ∈ s.cmdQueue) :
    s.changes (State.admitOpening { s with cmdQueue := rest } k owner t).1 := by
  obtain ⟨hfree, hn⟩ := State.openingSlot_ok _ _ _ _ hk
  refine Use.Change.opening s.use k _ rest hfree (opened_sound permanentOk c t ht owner _) ?_ hn hl
  rw [s.use_attached]
  exact ho

theorem openTake_changes : TakeChanges openTake := by
  intro s p rest c hq
  have refused : ∀ x, s.changes (State.refuse { s with cmdQueue := rest } p x) :=
    fun x => (s.dequeue_changes p rest hq).trans (State.refuse_changes _ _ _)
  unfold openTake
  split
  · exact refused _
  · rename_i t ht
    split
    · exact refused _
    · rename_i k hk
      refine State.changes.complete ?_ _ _ _ _
      exact s.admitOpening_changes rest k p false c t ht hk (Or.inr (by simp [hq])) fun q hm => by simp [hq, hm]

theorem openForTake_changes : TakeChanges openForTake := by
  intro s p rest c hq
  have refused : ∀ x, s.changes (State.refuse { s with cmdQueue := rest } p x) :=
    fun x => (s.dequeue_changes p rest hq).trans (State.refuse_changes _ _ _)
  unfold openForTake
  split
  · rename_i owner t _ ht
    split
    · exact refused _
    · rename_i hatt
      split
      · exact refused _
      · rename_i k hk
        refine State.changes.complete (State.changes.trans ?_ (State.changes_of_use_eq (State.use_place _ _ _ _))) _ _ _ _
        exact s.admitOpening_changes rest k owner true c t ht hk (Or.inl hatt) fun q hm => by simp [hq, hm]
  · exact refused _

theorem modifyTake_changes (p : Port) (c : Vector Byte 16) (s : State) : s.changes (modifyTake p c s) := by
  simp only [modifyTake]
  split
  · exact s.refuse_changes _ _
  · rename_i hc
    split
    · exact s.refuse_changes _ _
    · rename_i r hf
      split
      · exact s.refuse_changes _ _
      · rename_i hp
        split
        · exact s.refuse_changes _ _
        · split
          · exact s.refuse_changes _ _
          · rename_i hw
            split
            · exact s.refuse_changes _ _
            · have changed : s.changes (s.setLive (handleField c).slot (changeReservation (rawChanges c) r)) :=
                s.setLive_changes _ r _ (s.liveAt_of_fresh _ r hf).2
                  (becomes_changed c r (by simpa using hc) (by simpa using hp) hw) id
              refine State.changes.complete (changed.trans (State.changes_of_use_eq ?_)) _ _ _ _
              simp only [State.applyChanges]
              split <;> simp

theorem renewTake_changes (p : Port) (c : Vector Byte 16) (s : State) : s.changes (renewTake p c s) := by
  simp only [renewTake]
  split
  · exact s.refuse_changes _ _
  · rename_i r hf
    split
    · exact s.refuse_changes _ _
    · refine State.changes.complete (s.setLive_changes _ r _ (s.liveAt_of_fresh _ r hf).2 (becomes_renewed _ r) ?_)
        _ _ _ _
      intro hact
      unfold renewReservation
      split
      · exact hact
      · simp [hact]

theorem closeTake_changes (p : Port) (c : Vector Byte 16) (s : State) : s.changes (closeTake p c s) := by
  simp only [closeTake]
  split
  · exact s.refuse_changes _ _
  · split
    · exact s.refuse_changes _ _
    · exact (s.retire_changes _).complete _ _ _ _

theorem bindTake_changes (p : Port) (c : Vector Byte 16) (s : State) : s.changes (bindTake p c s) := by
  simp only [bindTake]
  split
  · exact s.refuse_changes _ _
  · rename_i code _
    split
    · exact s.refuse_changes _ _
    · rename_i r hf
      split
      · exact s.refuse_changes _ _
      · rename_i ho
        exact State.changes.complete (t := s.setBinding p code (some (handleField c)))
          (.bind s.use p code _ r hf (by simpa using ho)) _ _ _ _

theorem unbindTake_changes (p : Port) (c : Vector Byte 16) (s : State) : s.changes (unbindTake p c s) := by
  simp only [unbindTake]
  split
  · exact s.refuse_changes _ _
  · rename_i code _
    have unbound : s.changes (s.setBinding p code none) := by
      refine Use.Change.unbind s.use _ fun q d => ?_
      have e := s.binding_setBinding p q code d none
      by_cases hqd : q = p ∧ d = code
      · exact Or.inr (e.trans (if_pos hqd))
      · exact Or.inl (e.trans (if_neg hqd))
    split <;> exact unbound.complete _ _ _ _

theorem queryTake_changes (p : Port) (c : Vector Byte 16) (s : State) : s.changes (queryTake p c s) := by
  simp only [queryTake]
  split
  · exact s.refuse_changes _ _
  · split
    · exact s.refuse_changes _ _
    · exact (State.changes.refl s).complete _ _ _ _

theorem listTake_changes (p : Port) (c : Vector Byte 16) (s : State) : s.changes (listTake p c s) := by
  unfold listTake
  split
  · exact .refl _
  · exact s.refuse_changes _ _

theorem revokeTake_changes (p : Port) (c : Vector Byte 16) (s : State) : s.changes (revokeTake p c s) := by
  simp only [revokeTake]
  split
  · exact s.refuse_changes _ _
  · exact ((s.retire_changes _).trans (State.changes_of_use_eq (State.use_place _ _ _ _))).complete _ _ _ _

theorem suspendTake_changes (p : Port) (c : Vector Byte 16) (s : State) : s.changes (suspendTake p c s) := by
  simp only [suspendTake]
  split
  · exact s.refuse_changes _ _
  · rename_i r hf
    split
    · exact s.refuse_changes _ _
    · rename_i hst
      obtain ⟨hh, hlive⟩ := s.liveAt_of_fresh _ r hf
      refine State.changes.complete ?_ _ _ _ _
      simp only [State.changes, State.use_place, State.use_testYield, State.use_withdrawDrawing, State.use_setLive]
      have h := s.setLive_withdraw_changes _ r _ hlive (becomes_suspended r fun x => hst (Or.inl x))
      rwa [← hh] at h

theorem resumeTake_changes (p : Port) (c : Vector Byte 16) (s : State) : s.changes (resumeTake p c s) := by
  simp only [resumeTake]
  split
  · exact s.refuse_changes _ _
  · rename_i r hf
    split
    · exact s.refuse_changes _ _
    · rename_i hcom
      refine State.changes.complete (State.changes.trans ?_ (State.changes_of_use_eq (State.use_placeIf _ _ _ _))) _ _ _ _
      refine s.setLive_changes _ r _ (s.liveAt_of_fresh _ r hf).2 (becomes_resumed r (by simpa using hcom)) ?_
      intro hact
      simp [resumeReservation, hact]

theorem demoteTake_changes (p : Port) (c : Vector Byte 16) (s : State) : s.changes (demoteTake p c s) := by
  unfold demoteTake
  split
  · exact s.refuse_changes _ _
  · rename_i q _
    exact State.changes.complete (t := { s with pointers := Vector.replicate 6 q }) (.refl _) _ _ _ _

theorem State.clearFenceAt_changes (s : State) (q : Port) (k : Slot) : s.changes (s.clearFenceAt q k) := by
  unfold State.clearFenceAt
  split
  · exact .refl s
  · rename_i r hlive
    split
    · rename_i hq
      refine State.changes.trans ?_ (State.changes_of_use_eq (State.use_placeIf _ _ _ _))
      refine s.setLive_changes k r _ hlive (becomes_cleared r hq.2) ?_
      intro hact
      unfold clearFenceReservation
      split <;> simp [hact]
    · exact .refl s

theorem State.clearFence_changes (s : State) (q : Port) : s.changes (s.clearFence q) := by
  have cleared : ∀ (l : List Slot) (s : State), s.changes (l.foldl (fun s k => s.clearFenceAt q k) s) := by
    intro l
    induction l with
    | nil => exact fun s => .refl s
    | cons k l ih => exact fun s => (s.clearFenceAt_changes q k).trans (ih _)
  simp only [State.clearFence]
  split
  · exact (cleared allSlots s).trans (State.makeEntry_changes _ q)
  · exact (cleared allSlots s).trans (State.setPortState_changes _ q .idle (by decide))

theorem clearFenceTake_changes (p : Port) (c : Vector Byte 16) (s : State) : s.changes (clearFenceTake p c s) := by
  unfold clearFenceTake
  split
  · exact s.refuse_changes _ _
  · split
    · exact s.refuse_changes _ _
    · exact (s.clearFence_changes _).complete _ _ _ _

theorem setFrameTake_changes (p : Port) (c : Vector Byte 16) (s : State) : s.changes (setFrameTake p c s) := by
  simp only [setFrameTake]
  split
  · exact s.refuse_changes _ _
  · split
    · exact s.refuse_changes _ _
    · exact State.changes.complete (t := { s with pendingConfig := some (frameFields c) }) (.refl _) _ _ _ _

theorem queryPortTake_changes (p : Port) (c : Vector Byte 16) (s : State) : s.changes (queryPortTake p c s) := by
  unfold queryPortTake
  split
  · exact s.refuse_changes _ _
  · exact (State.changes.refl s).complete _ _ _ _

theorem badTake_changes (p : Port) (c : Vector Byte 16) (s : State) : s.changes (badTake p c s) := s.refuse_changes _ _

theorem resetTableTake_changes (p : Port) (c : Vector Byte 16) (s : State) : s.changes (resetTableTake p c s) := .refl _

/-- The take of any code (R150, R198). -/
theorem takeOf_changes : TakeChanges fun p c => takeOf (byteAt c 0) p c := by
  intro s p rest c hq
  simp only [takeOf]
  split
  · exact openTake_changes s p rest c hq
  · exact takeChanges_of_changes modifyTake_changes s p rest c hq
  · exact takeChanges_of_changes renewTake_changes s p rest c hq
  · exact takeChanges_of_changes closeTake_changes s p rest c hq
  · exact takeChanges_of_changes bindTake_changes s p rest c hq
  · exact takeChanges_of_changes unbindTake_changes s p rest c hq
  · exact takeChanges_of_changes queryTake_changes s p rest c hq
  · exact takeChanges_of_changes listTake_changes s p rest c hq
  · exact openForTake_changes.supervisorOnly s p rest c hq
  · exact (takeChanges_of_changes revokeTake_changes).supervisorOnly s p rest c hq
  · exact (takeChanges_of_changes suspendTake_changes).supervisorOnly s p rest c hq
  · exact (takeChanges_of_changes resumeTake_changes).supervisorOnly s p rest c hq
  · exact (takeChanges_of_changes demoteTake_changes).supervisorOnly s p rest c hq
  · exact (takeChanges_of_changes clearFenceTake_changes).supervisorOnly s p rest c hq
  · exact (takeChanges_of_changes setFrameTake_changes).supervisorOnly s p rest c hq
  · exact (takeChanges_of_changes resetTableTake_changes).supervisorOnly s p rest c hq
  · exact (takeChanges_of_changes queryPortTake_changes).supervisorOnly s p rest c hq
  · exact takeChanges_of_changes badTake_changes s p rest c hq

/-! ## The events that may wait no longer -/

theorem State.commandStep_changes (s : State) : s.changes s.commandStep := by
  unfold State.commandStep
  split
  · exact s.walkStep_changes
  · exact s.take_changes _ takeOf_changes

theorem State.takeAhead_changes (s : State) (k : Slot) (fuel : Nat) : s.changes (s.takeAhead k fuel) := by
  induction fuel generalizing s with
  | zero => exact .refl s
  | succ n ih =>
    unfold State.takeAhead
    split
    · exact s.commandStep_changes.trans (ih _)
    · exact .refl s

theorem State.sweepRest_changes (s : State) (fuel : Nat) : s.changes (s.sweepRest fuel) := by
  induction fuel generalizing s with
  | zero => exact .refl s
  | succ n ih =>
    unfold State.sweepRest
    split
    · exact .refl s
    · exact (s.takeAhead_changes _ _).trans ((State.sweepStep_changes _).trans (ih _))

theorem State.overdueWalk_changes (s : State) (n fuel : Nat) : s.changes (s.overdueWalk n fuel) := by
  induction fuel generalizing s with
  | zero => exact .refl s
  | succ m ih =>
    unfold State.overdueWalk
    split
    · exact s.walkStep_changes.trans (ih _)
    · exact .refl s

theorem State.tickWalk_changes (s : State) : s.changes s.tickWalk := by
  unfold State.tickWalk
  split
  · exact .refl s
  · rename_i w _
    exact State.changes.trans (t := { s with walk := some { w with ticks := w.ticks + 1 } }) (.refl _)
      (State.overdueWalk_changes _ _ _)

theorem State.takeOverdue_changes (s : State) : s.changes s.takeOverdue := by
  unfold State.takeOverdue
  split
  · exact s.tickWalk_changes
  · exact s.tickWalk_changes.trans (State.sweepRest_changes _ 32)

end Sys2Proof.Machine

namespace Sys2Proof.Machine

/-! ## Detach and reset -/

/-- The view with a slot's live record retired if the port owns it. -/
def Use.retireIfOwned (p : Port) (u : Use) (k : Slot) : Use :=
  match u.liveAt k with
  | none => u
  | some r => if r.owner = p then u.retire k r else u

theorem Use.retireIfOwned_change (p : Port) (u : Use) (k : Slot) : u.Change (u.retireIfOwned p k) := by
  unfold retireIfOwned
  split
  · exact .refl u
  · rename_i r h
    split
    · exact .retire u k r h
    · exact .refl u

theorem Use.retireAll_change (p : Port) (l : List Slot) (u : Use) : u.Change (l.foldl (retireIfOwned p) u) := by
  induction l generalizing u with
  | nil => exact .refl u
  | cons k l ih => exact .trans (u.retireIfOwned_change p k) (ih _)

theorem Use.retireIfOwned_setAttached (p q : Port) (b : Bool) (u : Use) (k : Slot) :
    (u.setAttached q b).retireIfOwned p k = (u.retireIfOwned p k).setAttached q b := by
  have e : (u.setAttached q b).liveAt k = u.liveAt k := rfl
  unfold retireIfOwned
  rw [e]
  split
  · rfl
  · split <;> rfl

theorem Use.retireAll_setAttached (p q : Port) (b : Bool) (l : List Slot) (u : Use) :
    l.foldl (retireIfOwned p) (u.setAttached q b) = (l.foldl (retireIfOwned p) u).setAttached q b := by
  induction l generalizing u with
  | nil => rfl
  | cons k l ih => rw [List.foldl_cons, List.foldl_cons, retireIfOwned_setAttached, ih]

/-- A record live after a slot's retirement was live before, and is not the port's if it stands in that slot. -/
theorem Use.live_of_retireIfOwned (p : Port) (u : Use) (k j : Slot) (r : Reservation)
    (h : (u.retireIfOwned p k).liveAt j = some r) : u.liveAt j = some r ∧ (j = k → r.owner ≠ p) := by
  unfold retireIfOwned at h
  split at h
  · rename_i hk
    exact ⟨h, fun e => by rw [e, hk] at h; cases h⟩
  · rename_i x hk
    split at h
    · rw [liveAt_retire] at h
      split at h
      · cases h
      · rename_i hj; exact ⟨h, fun e => absurd e hj⟩
    · rename_i hx
      exact ⟨h, fun e => by rw [e, hk] at h; cases h; exact hx⟩

theorem Use.live_of_retireAll (p : Port) (l : List Slot) (u : Use) (j : Slot) (r : Reservation)
    (h : (l.foldl (retireIfOwned p) u).liveAt j = some r) : u.liveAt j = some r ∧ (j ∈ l → r.owner ≠ p) := by
  induction l generalizing u with
  | nil => exact ⟨h, by simp⟩
  | cons k l ih =>
    obtain ⟨h1, h2⟩ := ih _ h
    obtain ⟨h3, h4⟩ := u.live_of_retireIfOwned p k j r h1
    refine ⟨h3, fun hm => ?_⟩
    rcases List.mem_cons.1 hm with e | hm
    · exact h4 e
    · exact h2 hm

theorem State.use_retireOwned (s : State) (p : Port) :
    (s.retireOwned p).use = allSlots.foldl (Use.retireIfOwned p) s.use := by
  unfold State.retireOwned
  generalize allSlots = l
  induction l generalizing s with
  | nil => rfl
  | cons k l ih =>
    rw [List.foldl_cons, List.foldl_cons, ih]
    congr 1
    unfold Use.retireIfOwned
    rw [s.use_liveAt]
    cases h : s.liveAt k with
    | none => rfl
    | some r => by_cases ho : r.owner = p <;> simp [ho, s.use_retireRecord_live k r h]

theorem State.use_detachNotices (s : State) (p : Port) : (s.detachNotices p).use = s.use := by
  simp only [State.detachNotices]
  split
  · rfl
  · rw [State.use_place]; rfl

/-- Where a detach begins: the tenure of the port ended, its entry removed, the port DETACHED (R120, R129). -/
theorem State.use_detachStart (s : State) (p : Port) :
    ∃ u, s.use.Change u ∧
      (((s.detachTenure p).setWaiting p none).setPortState p .detached).use = u.setAttached p false := by
  have gone : (((s.detachTenure p).setWaiting p none).setPortState p .detached).use =
      State.use { (s.detachTenure p).setPortState p .detached with waiting := bankSet s.waiting p none } := by
    unfold State.detachTenure
    split
    · rfl
    · split <;> rfl
  have attached (v : State) : (v.setPortState p .detached).use = v.use.setAttached p false :=
    v.use_setPortState p .detached
  rw [gone]
  unfold State.detachTenure
  split
  · exact ⟨_, .leave s.use p, congrArg (fun v : Use => { v with waiting := bankSet s.waiting p none }) (attached s)⟩
  · split
    · refine ⟨_, .trans (.endTenure s.use) (.leave _ p), ?_⟩
      have e : ((s.endTenure p .detached).setPortState p .detached).use =
          ({ s.use with tenant := none } : Use).setAttached p false := by
        rw [attached, State.use_endTenure]
        simp [Use.setAttached]
      exact congrArg (fun v : Use => { v with waiting := bankSet s.waiting p none }) e
    · exact ⟨_, .leave s.use p, congrArg (fun v : Use => { v with waiting := bankSet s.waiting p none }) (attached s)⟩

theorem State.use_leaveCommands (s : State) (p : Port) :
    ((s.unbindAll p).detachCommands p).use = { s.use with
      bindings := bankSet s.use.bindings p (Vector.replicate 4 none)
      queue := s.use.queue.filter fun q => decide (q ≠ p) } := rfl

theorem State.detachPort_changes (s : State) (p : Port) : s.changes (s.detachPort p) := by
  obtain ⟨u, hu, e⟩ := s.use_detachStart p
  obtain ⟨v, hv⟩ : ∃ v, allSlots.foldl (Use.retireIfOwned p) u = v := ⟨_, rfl⟩
  have retiring : u.Change v := hv ▸ u.retireAll_change p allSlots
  have notOwned : ∀ k r, v.liveAt k = some r → r.owner ≠ p := by
    intro k r hk
    rw [← hv] at hk
    exact (u.live_of_retireAll p allSlots k r hk).2 (List.mem_finRange k)
  have final : (s.detachPort p).use = Use.setAttached
      { v with
        bindings := bankSet v.bindings p (Vector.replicate 4 none), queue := v.queue.filter fun q => decide (q ≠ p) }
      p false := by
    rw [State.detachPort, State.use_testYield, State.use_detachNotices, State.use_leaveCommands, State.use_retireOwned, e,
      Use.retireAll_setAttached, hv]
    rfl
  have unbound : v.Change { v with bindings := bankSet v.bindings p (Vector.replicate 4 none) } := by
    refine .unbind v _ fun q c => ?_
    by_cases hq : q = p
    · subst hq; simp
    · simp [bankGet_bankSet_ne _ hq]
  unfold State.changes
  rw [final]
  refine hu.trans (retiring.trans (unbound.trans (.trans ?_ (.depart _ p notOwned ?_))))
  · exact .dequeue _ (v.queue.filter fun q => decide (q ≠ p)) fun q hq => (List.mem_filter.1 hq).1
  · simp

/-- A state with the records and the rest of the view as at reset is reached by abandoning everything (R125). -/
theorem State.powerOn_changes (s : State) (v : Vector PortRecord 8) : s.changes { s.powerOn with ports := v } := by
  refine .reset _ _ (fun k => ?_) (fun p c => ?_) (fun p => ?_) rfl rfl
  · simp [Use.liveAt, State.use, State.powerOn, State.reset, TableRecord.initial]
  · simp [State.use, State.powerOn, State.reset]
  · simp [State.use, State.powerOn, State.reset]

/-! ## The grant and the readies -/

theorem State.grantDrawing_some (s : State) (p : Port) (h : Handle) (hd : s.grantDrawing p = some h) :
    (∃ e, bankGet s.waiting p = some e ∧ e.handle = some h) ∧ ∃ r, s.fresh h = some r ∧ r.state = .active := by
  unfold State.grantDrawing at hd
  split at hd
  · cases hd
  · rename_i g hg
    split at hd
    · rename_i hf
      cases hd
      refine ⟨Option.bind_eq_some_iff.1 hg, ?_⟩
      cases hr : s.fresh h with
      | none => simp [hr] at hf
      | some r => exact ⟨r, rfl, by simpa [hr] using hf⟩
    · cases hd

theorem State.grant_changes (s : State) (g : Group) (p : Port) : s.changes (s.grant g p) := by
  refine State.changes.trans (s.setPortState_changes p .granted (by decide)) ?_
  exact Use.Change.grant _ p (s.grantDrawing p) fun h hd => s.grantDrawing_some p h hd

/-- The state a ready charges from: the state itself, or the state after the window effect of the oldest cycle (R140). -/
def State.takesWindow (s u : State) : Prop := u = s ∨ ∃ c rest d, s.completes c rest ∧ u = s.windowEffect c.access d

theorem State.readyEvent_changes (s : State) (d : Byte) : ∃ u, s.takesWindow u ∧ u.changes (s.readyEvent d) := by
  by_cases h : ∃ c rest, s.completes c rest
  · obtain ⟨c, rest, h⟩ := h
    refine ⟨s.windowEffect c.access d, Or.inr ⟨c, rest, d, h, rfl⟩, ?_⟩
    rw [s.readyEvent_completes c rest h]
    exact State.changes.trans (t := { s.windowEffect c.access d with pendingOrder := rest }) (.refl _)
      ((State.charge_changes _ _).trans (State.finishDrain_changes _))
  · refine ⟨s, Or.inl rfl, ?_⟩
    unfold State.readyEvent
    split
    · exact .refl s
    · rename_i hrst
      split
      · exact .refl s
      · exact .refl s
      · rename_i c rest ho
        split
        · exact .refl s
        · rename_i t ht
          exact absurd ⟨c, rest, by simpa using hrst, ho, by simp [ht]⟩ h

theorem State.readyOf_changes (s : State) (is : WindowAccess → Bool) (d : Byte) :
    ∃ u, s.takesWindow u ∧ u.changes (s.readyOf is d) := by
  unfold State.readyOf
  split
  · split
    · exact s.readyEvent_changes d
    · exact ⟨s, Or.inl rfl, .refl s⟩
  · exact s.readyEvent_changes d

/-! ## Every command -/

/-- A command answers with lawful changes of the view, after the window effect of a ready if it is one. -/
def Goes (s : State) (o : Result) : Prop := ∃ u t, o = .next t ∧ s.takesWindow u ∧ u.changes t

theorem Goes.of_changes {s t : State} (h : s.changes t) : Goes s (.next t) := ⟨s, t, rfl, Or.inl rfl, h⟩

theorem Goes.of_window {s t : State} (h : ∃ u, s.takesWindow u ∧ u.changes t) : Goes s (.next t) := by
  obtain ⟨u, hu, ht⟩ := h
  exact ⟨u, t, rfl, hu, ht⟩

theorem execResetRelease_goes (sup : Port) (wb : BitVec 4) (s : State) : Goes s (execResetRelease sup wb s) := by
  unfold execResetRelease
  split
  · exact .of_changes ((s.powerOn_changes _).trans (State.changes_of_use_eq rfl))
  · exact .of_changes (.refl s)

theorem execAttach_goes (p : Port) (s : State) : Goes s (execAttach p s) := by
  simp only [execAttach]
  split
  · exact .of_changes (.refl s)
  · split
    · exact .of_changes (s.setPort_changes p PortRecord.attached (by decide))
    · exact .of_changes (.refl s)

theorem execDetach_goes (p : Port) (s : State) : Goes s (execDetach p s) := by
  simp only [execDetach]
  split
  · exact .of_changes (.refl s)
  · split
    · exact .of_changes (.refl s)
    · exact .of_changes (State.detachPort_changes { s with pres := bankSet s.pres p false } p)

theorem execRequest_goes (p : Port) (c : SelCode) (s : State) : Goes s (execRequest p c s) := by
  simp only [execRequest]
  split
  · exact .of_changes (.refl s)
  · split
    · exact .of_changes (State.makeEntry_changes { s with sel := bankSet s.sel p c, req := bankSet s.req p true } p)
    · exact .of_changes (.refl s)

theorem execAddressStrobe_goes (a : Address) (w : Bool) (s : State) : Goes s (execAddressStrobe a w s) := by
  unfold execAddressStrobe
  split
  · exact .of_changes (.refl s)
  · split <;> exact .of_changes (.refl s)

theorem execGrantDecision_goes (s : State) : Goes s (execGrantDecision s) := by
  unfold execGrantDecision
  split
  · exact .of_changes (.refl s)
  · split
    · exact .of_changes (.refl s)
    · exact .of_changes (s.grant_changes _ _)

theorem execGraceExpiry_goes (s : State) : Goes s (execGraceExpiry s) := by
  unfold execGraceExpiry
  split
  · exact .of_changes (s.expireGrace_changes _)
  · exact .of_changes (.refl s)

theorem execDrainExpiry_goes (s : State) : Goes s (execDrainExpiry s) := by
  unfold execDrainExpiry
  split
  · exact .of_changes (s.expireDrain_changes _)
  · exact .of_changes (.refl s)

/-- An event that arises only under a condition, and changes nothing where it does not arise (log entry 2). -/
theorem Goes.ite {s t : State} (c : Prop) [Decidable c] (h : s.changes t) : Goes s (if c then .next s else .next t) := by
  split
  · exact .of_changes (.refl s)
  · exact .of_changes h

theorem exec_goes (i : Instr) (s : State) : Goes s (exec i s) := by
  cases i with
  | resetAssert => exact .of_changes (s.powerOn_changes _)
  | resetRelease sup wb => exact execResetRelease_goes sup wb s
  | attach p => exact execAttach_goes p s
  | detach p => exact execDetach_goes p s
  | request p c => exact execRequest_goes p c s
  | withdrawal p => exact .of_changes (s.requestFalls_changes p)
  | release p => exact .of_changes (s.requestFalls_changes p)
  | addressStrobe a w => exact execAddressStrobe_goes a w s
  | ready d => exact .of_window (s.readyEvent_changes d)
  | idleLimit => exact .ite _ s.idleTick_changes
  | graceExpiry => exact execGraceExpiry_goes s
  | drainExpiry => exact execDrainExpiry_goes s
  | boundary => exact .ite _ (s.takeOverdue_changes.trans (.refl _))
  | sweepVisit => exact .ite _ s.sweepStep_changes
  | grantDecision => exact execGrantDecision_goes s
  | trigger v => exact .of_window (s.readyOf_changes _ v)
  | windowWrite v => exact .of_window (s.readyOf_changes _ v)
  | portControlWrite v => exact .of_window (s.readyOf_changes _ v)
  | noticeTake => exact .of_window (s.readyOf_changes _ 0)
  | timeSnapshot => exact .of_window (s.readyOf_changes _ 0)
  | takeBadCommand => exact .of_changes (s.take_changes _ (takeChanges_of_changes badTake_changes))
  | takeOpen => exact .of_changes (s.take_changes _ openTake_changes)
  | takeModify => exact .of_changes (s.take_changes _ (takeChanges_of_changes modifyTake_changes))
  | takeRenew => exact .of_changes (s.take_changes _ (takeChanges_of_changes renewTake_changes))
  | takeClose => exact .of_changes (s.take_changes _ (takeChanges_of_changes closeTake_changes))
  | takeBind => exact .of_changes (s.take_changes _ (takeChanges_of_changes bindTake_changes))
  | takeUnbind => exact .of_changes (s.take_changes _ (takeChanges_of_changes unbindTake_changes))
  | takeQuery => exact .of_changes (s.take_changes _ (takeChanges_of_changes queryTake_changes))
  | takeList => exact .of_changes (s.take_changes _ (takeChanges_of_changes listTake_changes))
  | listVisit => exact .ite _ s.walkStep_changes
  | takeOpenFor => exact .of_changes (s.take_changes _ openForTake_changes.supervisorOnly)
  | takeRevoke => exact .of_changes (s.take_changes _ (takeChanges_of_changes revokeTake_changes).supervisorOnly)
  | takeSuspend => exact .of_changes (s.take_changes _ (takeChanges_of_changes suspendTake_changes).supervisorOnly)
  | takeResume => exact .of_changes (s.take_changes _ (takeChanges_of_changes resumeTake_changes).supervisorOnly)
  | takeDemote => exact .of_changes (s.take_changes _ (takeChanges_of_changes demoteTake_changes).supervisorOnly)
  | takeClearFence => exact .of_changes (s.take_changes _ (takeChanges_of_changes clearFenceTake_changes).supervisorOnly)
  | takeSetFrame => exact .of_changes (s.take_changes _ (takeChanges_of_changes setFrameTake_changes).supervisorOnly)
  | takeResetTable => exact .of_changes (s.take_changes _ (takeChanges_of_changes resetTableTake_changes).supervisorOnly)
  | resetTableVisit => exact .ite _ s.walkStep_changes
  | takeQueryPort => exact .of_changes (s.take_changes _ (takeChanges_of_changes queryPortTake_changes).supervisorOnly)
  | tick => exact .ite _ (s.takeOverdue_changes.trans ((State.tenureTick_changes _).trans (State.frameTick_changes _)))

/-- A law of the view that every change keeps holds after a step, if it holds after the window effect of a ready. -/
theorem step_keeps (law : Use → Prop) (keeps : ∀ u v : Use, u.Change v → law u → law v) (s t : State)
    (window : ∀ l u, State.takesWindow { s with pending := l } u → law u.use) (h : step s = .next t) : law t.use := by
  unfold step at h
  split at h
  · cases h
    exact window s.pending s (Or.inl rfl)
  · rename_i c rest _
    obtain ⟨u, v, hv, hu, hc⟩ := exec_goes c { s with pending := rest }
    rw [hv] at h
    cases h
    exact keeps _ _ hc (window rest u hu)

end Sys2Proof.Machine

namespace Sys2Proof.Machine

/-! # The invariants of records, handles and owners -/

/-! ## Records -/

/-- Every live record keeps its laws. -/
def Use.recordsSound (u : Use) : Prop := ∀ k r, u.liveAt k = some r → r.sound

theorem Use.recordsSound_setLive (u : Use) (k : Slot) (r : Reservation) (hu : u.recordsSound) (hr : r.sound) :
    (u.setLive k r).recordsSound := by
  intro j x hx
  rw [liveAt_setLive] at hx
  split at hx
  · cases hx; exact hr
  · exact hu j x hx

theorem Use.Change.recordsSound {u v : Use} (h : u.Change v) (hu : u.recordsSound) : v.recordsSound := by
  induction h with
  | trans _ _ ih1 ih2 => exact ih2 (ih1 hu)
  | retire u k r h =>
    intro j x hx
    rw [liveAt_retire] at hx
    split at hx
    · cases hx
    · exact hu j x hx
  | alter u k r r' h hb _ => exact u.recordsSound_setLive k r' hu (hb.2 (hu k r h))
  | opening u k r l _ hs _ _ _ => exact u.recordsSound_setLive k r hu hs
  | reset u v ht _ _ _ _ =>
    intro k r hk
    rw [ht k] at hk
    cases hk
  | refl | endTenure | withdraw | grant | leave | enter | bind | unbind | dequeue | attach | depart => exact hu

/-- A window effect leaves the records, bindings, entries and the tenure. -/
theorem State.takesWindow_frame (s u : State) (h : s.takesWindow u) :
    u.table = s.table ∧ u.bindings = s.bindings ∧ u.waiting = s.waiting ∧ u.tenure = s.tenure := by
  rcases h with rfl | ⟨c, rest, d, -, rfl⟩
  · exact ⟨rfl, rfl, rfl, rfl⟩
  · obtain ⟨a, b, c, e, f, g, h, l, eq⟩ := s.windowEffect_frame c.access d
    rw [eq]
    exact ⟨rfl, rfl, rfl, rfl⟩

/-- Settles O53: every change of the view keeps the laws of the records. -/
theorem recordsKeepTheirLaws : Obligations.RecordsKeepTheirLaws := by
  intro s t hs h
  refine step_keeps Use.recordsSound (fun _ _ => Use.Change.recordsSound) s t (fun l u hu => ?_) h
  have e : u.table = s.table := (State.takesWindow_frame _ u hu).1
  intro k r hk
  refine hs k r ?_
  rw [← hk]
  simp [State.liveAt, State.record, e]

/-! ## Handles -/

/-- A handle names a live reservation of this port (R9). -/
def Use.owns (u : Use) (p : Port) (h : Handle) : Prop := ∃ r, u.fresh h = some r ∧ r.owner = p

/-- Bindings and waiting entries name live reservations of their own port, and the drawing reservation is an ACTIVE one of
the holder. -/
structure Use.handlesSound (u : Use) : Prop where
  bound : ∀ p c h, bankGet (bankGet u.bindings p) c = some h → u.owns p h
  entered : ∀ p e h, bankGet u.waiting p = some e → e.handle = some h → u.owns p h
  drawn : ∀ p h, u.tenant = some (p, some h) → ∃ r, u.fresh h = some r ∧ r.owner = p ∧ r.state = .active

theorem State.handlesSound_iff (s : State) : s.handlesSound ↔ s.use.handlesSound := by
  have drawn : (∀ t h, s.tenure = some t → t.drawing = some h →
      ∃ r, s.fresh h = some r ∧ r.owner = t.holder ∧ r.state = .active) ↔
      ∀ p h, s.use.tenant = some (p, some h) → ∃ r, s.use.fresh h = some r ∧ r.owner = p ∧ r.state = .active := by
    constructor
    · intro hd p h ht
      obtain ⟨t, hten, e⟩ := Option.map_eq_some_iff.1 ht
      obtain ⟨rfl, hdr⟩ := Prod.mk.inj e
      exact hd t h hten hdr
    · intro hd t h ht hdr
      exact hd t.holder h (by simp [State.use, ht, hdr])
  constructor
  · rintro ⟨hb, hw, hd⟩
    exact ⟨hb, hw, drawn.1 hd⟩
  · rintro ⟨hb, hw, hd⟩
    exact ⟨hb, hw, drawn.2 hd⟩

/-- Handles stay sound where every fresh handle stays fresh of the same owner, and of an ACTIVE record if a tenure draws
on it. -/
theorem Use.handlesSound.mono {u v : Use} (hu : u.handlesSound) (hb : v.bindings = u.bindings)
    (hw : v.waiting = u.waiting) (ht : v.tenant = u.tenant)
    (hf : ∀ h r, u.fresh h = some r → ∃ r', v.fresh h = some r' ∧ r'.owner = r.owner ∧
      ((∃ p, u.tenant = some (p, some h)) → r.state = .active → r'.state = .active)) : v.handlesSound := by
  have owns : ∀ p h, u.owns p h → v.owns p h := by
    rintro p h ⟨r, hr, ho⟩
    obtain ⟨r', hr', ho', -⟩ := hf h r hr
    exact ⟨r', hr', ho'.trans ho⟩
  refine ⟨fun p c h e => owns p h (hu.bound p c h (hb ▸ e)), fun p x h e => owns p h ∘ hu.entered p x h (hw ▸ e), ?_⟩
  intro p h e
  rw [ht] at e
  obtain ⟨r, hr, ho, ha⟩ := hu.drawn p h e
  obtain ⟨r', hr', ho', ha'⟩ := hf h r hr
  exact ⟨r', hr', ho'.trans ho, ha' ⟨p, e⟩ ha⟩

theorem Use.handlesSound_alter (u : Use) (k : Slot) (r r' : Reservation) (h : u.liveAt k = some r)
    (ho : r'.owner = r.owner)
    (ha : r.state = .active → r'.state = .active ∨ ∀ p, u.tenant ≠ some (p, some (u.handleAt k))) (hu : u.handlesSound) :
    (u.setLive k r').handlesSound := by
  refine hu.mono rfl rfl rfl fun g x hx => ?_
  obtain ⟨hg, hl⟩ := (u.fresh_eq_some g x).1 hx
  rw [fresh_setLive]
  by_cases hk : g.slot = k
  · subst hk
    rw [h] at hl
    cases hl
    refine ⟨r', if_pos hg, ho, fun ⟨p, hp⟩ hact => ?_⟩
    exact (ha hact).resolve_right fun hn => hn p (hg ▸ hp)
  · have hne : g ≠ u.handleAt k := fun e => hk (by rw [e]; rfl)
    exact ⟨x, by rw [if_neg hne, if_neg hk, hx], rfl, fun _ => id⟩

theorem Use.handlesSound_opening (u : Use) (k : Slot) (r : Reservation) (l : List Port) (h : u.liveAt k = none)
    (hu : u.handlesSound) : ({ u.setLive k r with queue := l } : Use).handlesSound := by
  refine hu.mono rfl rfl rfl fun g x hx => ?_
  obtain ⟨hg, hl⟩ := (u.fresh_eq_some g x).1 hx
  have hk : g.slot ≠ k := fun e => by rw [e, h] at hl; cases hl
  have hne : g ≠ u.handleAt k := fun e => hk (by rw [e]; rfl)
  have hf := u.fresh_setLive k r g
  rw [if_neg hne, if_neg hk, hx] at hf
  exact ⟨x, hf, rfl, fun _ => id⟩

theorem Use.tenant_withdraw (u : Use) (g h : Handle) (p : Port) (hw : (u.withdraw g).tenant = some (p, some h)) :
    u.tenant = some (p, some h) ∧ h ≠ g := by
  obtain ⟨x, hx, e⟩ := Option.map_eq_some_iff.1 hw
  split at e
  · cases e
  · rename_i hne
    subst e
    exact ⟨hx, fun e => hne (by rw [e])⟩

/-- The handles that name a reservation and are not the retired one name it still. -/
theorem Use.owns_retire (u : Use) (k : Slot) (r : Reservation) (p : Port) (h : Handle) (ho : u.owns p h)
    (hne : h ≠ u.handleAt k) : (u.retire k r).owns p h := by
  obtain ⟨x, hx, ho⟩ := ho
  have hk : h.slot ≠ k := fun e => hne (e ▸ ((u.fresh_eq_some h x).1 hx).1)
  exact ⟨x, by rw [fresh_retire, if_neg hk, hx], ho⟩

theorem dropBinding_eq_some (g h : Handle) (b : Option Handle) : dropBinding g b = some h ↔ b = some h ∧ h ≠ g := by
  unfold dropBinding
  split
  · rename_i hb; simp [hb, eq_comm]
  · rename_i hb; exact ⟨fun e => ⟨e, fun hg => hb (hg ▸ e)⟩, And.left⟩

theorem dropWaiting_handle (g h : Handle) (w : Option WaitingEntry) (e : WaitingEntry) (hd : dropWaiting g w = some e)
    (he : e.handle = some h) : ∃ x, w = some x ∧ x.handle = some h ∧ h ≠ g := by
  unfold dropWaiting at hd
  split at hd
  · cases hd
  · rename_i x
    cases hd
    split at he
    · cases he
    · rename_i hx; exact ⟨x, rfl, he, fun hg => hx (hg ▸ he)⟩

theorem Use.handlesSound_retire (u : Use) (k : Slot) (r : Reservation) (h : u.liveAt k = some r) (hu : u.handlesSound) :
    (u.retire k r).handlesSound := by
  refine ⟨fun p c g hg => ?_, fun p e g he hg => ?_, fun p g hg => ?_⟩
  · simp only [retire, withdraw] at hg
    by_cases hp : p = r.owner
    · subst hp
      simp only [bankGet_bankSet_self, bankGet_bankMap, dropBinding_eq_some] at hg
      exact u.owns_retire k r _ g (hu.bound _ c g hg.1) hg.2
    · rw [bankGet_bankSet_ne _ hp] at hg
      have ho := hu.bound p c g hg
      refine u.owns_retire k r p g ho fun e => ?_
      obtain ⟨x, hx, ho⟩ := ho
      have hl := ((u.fresh_eq_some g x).1 hx).2
      rw [e] at hl
      cases h.symm.trans hl
      exact hp ho.symm
  · simp only [retire, withdraw, bankGet_bankMap] at he
    obtain ⟨x, hx, hxg, hne⟩ := dropWaiting_handle _ g _ e he hg
    exact u.owns_retire k r p g (hu.entered p x g hx hxg) hne
  · obtain ⟨ht, hne⟩ := tenant_withdraw _ _ g p hg
    obtain ⟨x, hx, ho, ha⟩ := hu.drawn p g ht
    have hk : g.slot ≠ k := fun e => hne (e ▸ ((u.fresh_eq_some g x).1 hx).1)
    exact ⟨x, by rw [fresh_retire, if_neg hk, hx], ho, ha⟩

theorem Use.Change.handlesSound {u v : Use} (h : u.Change v) (hu : u.handlesSound) : v.handlesSound := by
  induction h with
  | trans _ _ ih1 ih2 => exact ih2 (ih1 hu)
  | retire u k r h => exact u.handlesSound_retire k r h hu
  | alter u k r r' h hb ha => exact u.handlesSound_alter k r r' h hb.1 ha hu
  | opening u k r l h _ _ _ _ => exact u.handlesSound_opening k r l h hu
  | endTenure u => exact ⟨hu.bound, hu.entered, fun p h e => by cases e⟩
  | withdraw u g => exact ⟨hu.bound, hu.entered, fun p h e => hu.drawn p h (u.tenant_withdraw g h p e).1⟩
  | grant u p d hd =>
    refine ⟨hu.bound, fun q e h he => ?_, fun q h e => ?_⟩
    · by_cases hq : q = p
      · subst hq; simp at he
      · rw [bankGet_bankSet_ne _ hq] at he
        exact hu.entered q e h he
    · cases e
      obtain ⟨⟨e, he, heh⟩, r, hr, ha⟩ := hd h rfl
      obtain ⟨x, hx, ho⟩ := hu.entered p e h he heh
      cases hr.symm.trans hx
      exact ⟨r, hr, ho, ha⟩
  | leave u p =>
    refine ⟨hu.bound, fun q e h he => ?_, hu.drawn⟩
    by_cases hq : q = p
    · subst hq; simp at he
    · rw [bankGet_bankSet_ne _ hq] at he
      exact hu.entered q e h he
  | enter u p c =>
    refine ⟨hu.bound, fun q e h he heh => ?_, hu.drawn⟩
    by_cases hq : q = p
    · subst hq
      rw [bankGet_bankSet_self] at he
      cases he
      exact hu.bound q c h heh
    · rw [bankGet_bankSet_ne _ hq] at he
      exact hu.entered q e h he heh
  | bind u p c g r hf ho =>
    refine ⟨fun q d h hb => ?_, hu.entered, hu.drawn⟩
    by_cases hq : q = p
    · subst hq
      rw [bankGet_bankSet_self, bankGet_bankSet] at hb
      split at hb
      · cases hb; exact ⟨r, hf, ho⟩
      · exact hu.bound q d h hb
    · rw [bankGet_bankSet_ne _ hq] at hb
      exact hu.bound q d h hb
  | unbind u b hb =>
    refine ⟨fun p c h e => ?_, hu.entered, hu.drawn⟩
    rcases hb p c with hb | hb
    · exact hu.bound p c h (hb.symm.trans e)
    · cases hb.symm.trans e
  | reset u v ht hb hw hd hq =>
    refine ⟨fun p c h e => ?_, fun p x h e => ?_, fun p h e => ?_⟩
    · rw [hb] at e; cases e
    · rw [hw] at e; cases e
    · rw [hd] at e; cases e
  | refl | dequeue | attach | depart => exact ⟨hu.bound, hu.entered, hu.drawn⟩

/-- Settles O56: every change of the view keeps the handles on live records. -/
theorem handlesNameLiveReservations : Obligations.HandlesNameLiveReservations := by
  intro s t hs h
  rw [State.handlesSound_iff] at hs ⊢
  refine step_keeps Use.handlesSound (fun _ _ => Use.Change.handlesSound) s t (fun l u hu => ?_) h
  obtain ⟨htab, hbind, hwait, hten⟩ := State.takesWindow_frame _ u hu
  have e : u.use = { s.use with attached := u.use.attached, queue := u.use.queue } := by
    simp [State.use, htab, hbind, hwait, hten]
  rw [e]
  exact ⟨hs.bound, hs.entered, hs.drawn⟩

/-! ## Owners -/

/-- Two counts over a list that agree but at one member differ by what they say of it. -/
theorem countP_exchange {α : Type} (l : List α) (k : α) (hl : l.Nodup) (hk : k ∈ l) (P Q : α → Bool)
    (h : ∀ j, j ≠ k → P j = Q j) : l.countP P + (Q k).toNat = l.countP Q + (P k).toNat := by
  obtain ⟨a, b, rfl⟩ := List.append_of_mem hk
  obtain ⟨-, hb, hab⟩ := List.nodup_append.1 hl
  have ha : a.countP P = a.countP Q := List.countP_congr fun j hj => by rw [h j fun e => hab j hj k (by simp) e]
  have hb : b.countP P = b.countP Q := List.countP_congr fun j hj => by
    rw [h j fun e => (List.nodup_cons.1 hb).1 (e ▸ hj)]
  rw [List.countP_append, List.countP_append, List.countP_cons, List.countP_cons, ha, hb]
  cases P k <;> cases Q k <;> simp [Nat.add_assoc]

/-- What one slot adds to the owned count of a port. -/
def ownedAt (x : Option Reservation) (p : Port) : Nat := (x.any fun r => decide (r.owner = p)).toNat

@[simp] theorem ownedAt_none (p : Port) : ownedAt none p = 0 := rfl

@[simp] theorem ownedAt_some (r : Reservation) (p : Port) : ownedAt (some r) p = if r.owner = p then 1 else 0 := by
  by_cases h : r.owner = p <;> simp [ownedAt, h]

/-- The owned counts of two views whose records agree but in one slot. -/
theorem Use.owned_exchange (u v : Use) (k : Slot) (h : ∀ j, j ≠ k → v.liveAt j = u.liveAt j) (p : Port) :
    v.owned p + ownedAt (u.liveAt k) p = u.owned p + ownedAt (v.liveAt k) p :=
  countP_exchange allSlots k (List.nodup_finRange 32) (List.mem_finRange k)
    (fun j => (v.liveAt j).any fun r : Reservation => decide (r.owner = p))
    (fun j => (u.liveAt j).any fun r : Reservation => decide (r.owner = p))
    fun j hj => by rw [h j hj]

theorem Use.owned_setLive (u : Use) (k : Slot) (r : Reservation) (p : Port) :
    (u.setLive k r).owned p + ownedAt (u.liveAt k) p = u.owned p + ownedAt (some r) p := by
  have h := u.owned_exchange (u.setLive k r) k (fun j hj => by rw [liveAt_setLive, if_neg hj]) p
  rwa [liveAt_setLive u k k, if_pos rfl] at h

theorem Use.owned_retire (u : Use) (k : Slot) (r : Reservation) (p : Port) :
    (u.retire k r).owned p + ownedAt (u.liveAt k) p = u.owned p := by
  have h := u.owned_exchange (u.retire k r) k (fun j hj => by rw [liveAt_retire, if_neg hj]) p
  rwa [liveAt_retire u k k, if_pos rfl, ownedAt_none, Nat.add_zero] at h

/-- The owner of every live record and every queued port is attached, and no port owns more than eight. -/
structure Use.ownersSound (u : Use) : Prop where
  owner : ∀ k r, u.liveAt k = some r → bankGet u.attached r.owner = true
  eight : ∀ p, u.owned p ≤ 8
  queued : ∀ p, p ∈ u.queue → bankGet u.attached p = true

theorem State.ownersSound_iff (s : State) : s.ownersSound ↔ s.use.ownersSound := by
  constructor
  · rintro ⟨ho, he, hq⟩
    exact ⟨fun k r h => (s.use_attached _).2 (ho k r h), he, fun p h => (s.use_attached _).2 (hq p h)⟩
  · rintro ⟨ho, he, hq⟩
    exact ⟨fun k r h => (s.use_attached _).1 (ho k r h), he, fun p h => (s.use_attached _).1 (hq p h)⟩

theorem Use.ownersSound_retire (u : Use) (k : Slot) (r : Reservation) (hu : u.ownersSound) :
    (u.retire k r).ownersSound := by
  refine ⟨fun j x hx => ?_, fun p => ?_, hu.queued⟩
  · rw [liveAt_retire] at hx
    split at hx
    · cases hx
    · exact hu.owner j x hx
  · have := u.owned_retire k r p
    have := hu.eight p
    omega

theorem Use.ownersSound_alter (u : Use) (k : Slot) (r r' : Reservation) (h : u.liveAt k = some r)
    (ho : r'.owner = r.owner) (hu : u.ownersSound) : (u.setLive k r').ownersSound := by
  refine ⟨fun j x hx => ?_, fun p => ?_, hu.queued⟩
  · rw [liveAt_setLive] at hx
    split at hx
    · cases hx; rw [ho]; exact hu.owner k r h
    · exact hu.owner j x hx
  · have hc := u.owned_setLive k r' p
    rw [h, ownedAt_some, ownedAt_some, ho] at hc
    have := hu.eight p
    omega

theorem Use.ownersSound_opening (u : Use) (k : Slot) (r : Reservation) (l : List Port) (h : u.liveAt k = none)
    (ho : bankGet u.attached r.owner = true ∨ r.owner ∈ u.queue) (hn : u.owned r.owner < 8) (hl : ∀ p ∈ l, p ∈ u.queue)
    (hu : u.ownersSound) : ({ u.setLive k r with queue := l } : Use).ownersSound := by
  refine ⟨fun j x hx => ?_, fun p => ?_, fun p hp => hu.queued p (hl p hp)⟩
  · have hx := (u.liveAt_setLive k j r).symm.trans hx
    split at hx
    · cases hx; exact ho.elim id (hu.queued _)
    · exact hu.owner j x hx
  · have hc := u.owned_setLive k r p
    rw [h, ownedAt_none, ownedAt_some] at hc
    change (u.setLive k r).owned p ≤ 8
    have := hu.eight p
    by_cases hp : r.owner = p
    · subst hp; rw [if_pos rfl] at hc; omega
    · rw [if_neg hp] at hc; omega

theorem Use.ownersSound_attach (u : Use) (p : Port) (hu : u.ownersSound) : (u.setAttached p true).ownersSound := by
  have mono : ∀ q, bankGet u.attached q = true → bankGet (u.setAttached p true).attached q = true := by
    intro q hq
    by_cases h : q = p <;> simp [setAttached, bankGet_bankSet, h, hq]
  exact ⟨fun k r h => mono _ (hu.owner k r h), hu.eight, fun q h => mono q (hu.queued q h)⟩

theorem Use.ownersSound_depart (u : Use) (p : Port) (ho : ∀ k r, u.liveAt k = some r → r.owner ≠ p) (hq : p ∉ u.queue)
    (hu : u.ownersSound) : (u.setAttached p false).ownersSound := by
  have others : ∀ q, q ≠ p → bankGet (u.setAttached p false).attached q = bankGet u.attached q :=
    fun q h => bankGet_bankSet_ne _ h _
  refine ⟨fun k r h => ?_, hu.eight, fun q h => ?_⟩
  · rw [others _ (ho k r h)]; exact hu.owner k r h
  · rw [others q fun e => hq (e ▸ h)]; exact hu.queued q h

theorem Use.Change.ownersSound {u v : Use} (h : u.Change v) (hu : u.ownersSound) : v.ownersSound := by
  induction h with
  | trans _ _ ih1 ih2 => exact ih2 (ih1 hu)
  | retire u k r _ => exact u.ownersSound_retire k r hu
  | alter u k r r' h hb _ => exact u.ownersSound_alter k r r' h hb.1 hu
  | opening u k r l h _ ho hn hl => exact u.ownersSound_opening k r l h ho hn hl hu
  | dequeue u l hl => exact ⟨hu.owner, hu.eight, fun p hp => hu.queued p (hl p hp)⟩
  | attach u p => exact u.ownersSound_attach p hu
  | depart u p ho hq => exact u.ownersSound_depart p ho hq hu
  | reset u v ht _ _ _ hq =>
    refine ⟨fun k r h => ?_, fun p => ?_, fun p hp => ?_⟩
    · rw [ht k] at h; cases h
    · simp [owned, ht]
    · rw [hq] at hp; cases hp
  | refl | endTenure | withdraw | grant | leave | enter | bind | unbind => exact ⟨hu.owner, hu.eight, hu.queued⟩

/-- A window store leaves every port as attached as it was, and queues no port but its own. -/
theorem State.windowStore_queue (s : State) (p : Port) (o : Nat) (d : Byte) :
    (s.windowStore p o d).use.attached = s.use.attached ∧
      ∀ q ∈ (s.windowStore p o d).cmdQueue, q ∈ s.cmdQueue ∨ q = p := by
  unfold State.windowStore
  split
  · split
    · exact ⟨rfl, fun q => Or.inl⟩
    · unfold State.triggerSlot
      split
      · exact ⟨rfl, fun q hq => by simpa [State.acceptTrigger] using hq⟩
      · exact ⟨rfl, fun q hq => by simpa [State.acceptTrigger] using hq⟩
      · exact ⟨rfl, fun q => Or.inl⟩
      · exact ⟨rfl, fun q => Or.inl⟩
  · split
    · exact ⟨rfl, fun q => Or.inl⟩
    · split
      · exact ⟨congrArg Use.attached (s.use_setPort_same p _ rfl), fun q => Or.inl⟩
      · exact ⟨rfl, fun q => Or.inl⟩

theorem State.windowEffect_queue (s : State) (x : Option WindowAccess) (d : Byte) :
    (s.windowEffect x d).use.attached = s.use.attached ∧
      ∀ q ∈ (s.windowEffect x d).cmdQueue, q ∈ s.cmdQueue ∨ ∃ a, x = some a ∧ q = a.port := by
  unfold State.windowEffect
  split
  · exact ⟨rfl, fun q => Or.inl⟩
  · rename_i a
    split
    · obtain ⟨h1, h2⟩ := s.windowStore_queue a.port a.offset.toNat d
      exact ⟨h1, fun q hq => (h2 q hq).imp id fun e => ⟨a, rfl, e⟩⟩
    · obtain ⟨_, _, _, _, e⟩ := s.windowRead_frame a.port a.offset.toNat
      rw [e]
      exact ⟨rfl, fun q => Or.inl⟩

/-- On a sound bus a ready queues no port but the holder, which is attached (R92, R140). -/
theorem State.takesWindow_ownersSound (s u : State) (hbus : s.busSound) (hs : s.ownersSound) (h : s.takesWindow u) :
    u.ownersSound := by
  rcases h with rfl | ⟨c, rest, d, ⟨-, ho, -⟩, rfl⟩
  · exact hs
  · obtain ⟨hholds, -, -, -, -, hmark, -⟩ := hbus
    obtain ⟨hatt, hqueue⟩ := s.windowEffect_queue c.access d
    rw [State.ownersSound_iff] at hs ⊢
    have htab : (s.windowEffect c.access d).table = s.table := by
      obtain ⟨_, _, _, _, _, _, _, _, e⟩ := s.windowEffect_frame c.access d
      rw [e]
    have hlive : (s.windowEffect c.access d).use.liveAt = s.use.liveAt := by
      funext k; simp [Use.liveAt, State.use, htab]
    refine ⟨fun k r hk => ?_, fun p => ?_, fun p hp => ?_⟩
    · rw [hatt]; exact hs.owner k r (hlive ▸ hk)
    · have he := hs.eight p
      unfold Use.owned at he ⊢
      rwa [hlive]
    · rw [hatt]
      rcases hqueue p hp with hp | ⟨a, ha, rfl⟩
      · exact hs.queued p hp
      · have hc : c ∈ s.cycles := by simp [State.cycles, ho, Strobe.cycle?]
        have hb : (s.port a.port).state.holdsBus = true := (hholds a.port).2 (hmark c hc a ha)
        rw [s.use_attached]
        intro hd
        rw [hd] at hb
        cases hb

/-- Settles O58: every change of the view keeps the owners, and on a sound bus the acceptance of a trigger does. -/
theorem ownersStayAttachedAndWithinEight : Obligations.OwnersStayAttachedAndWithinEight := by
  intro s t hbus hs h
  rw [State.ownersSound_iff]
  refine step_keeps Use.ownersSound (fun _ _ => Use.Change.ownersSound) s t (fun l u hu => ?_) h
  rw [← State.ownersSound_iff]
  exact State.takesWindow_ownersSound { s with pending := l } u hbus hs hu

end Sys2Proof.Machine

namespace Sys2Proof.Machine

/-! # Retirement and the charge of a cycle -/

theorem dropWaiting_eq_map (h : Handle) :
    dropWaiting h = Option.map fun w => if w.handle = some h then { handle := none } else w := by
  funext e; cases e <;> rfl

theorem State.retireRecord_of_live (s : State) (k : Slot) (r : Reservation) (h : s.liveAt k = some r) :
    s.retireRecord k = State.withdrawDrawing
      { s with
        table := bankSet s.table k { generation := (s.record k).generation + 1, live := none }
        committed := s.committed - r.contribution
        preemptTotal := s.preemptTotal - preemptPart r r.contribution
        bindings := bankSet s.bindings r.owner (bankMap (fun _ => dropBinding (s.handleAt k)) (bankGet s.bindings r.owner))
        waiting := bankMap (fun _ => dropWaiting (s.handleAt k)) s.waiting }
      (s.handleAt k) r.cls := by
  unfold State.retireRecord
  rw [h]
  rfl

/-- Settles O29: the account of the retired slot read off the view. -/
theorem retirementFreesTheRecord : Obligations.RetirementFreesTheRecord := by
  refine fun s k => ⟨s.retireRecord_free k, ?_⟩
  rintro r h hlive rfl
  have view := s.use_retireRecord_live k r hlive
  refine ⟨?_, ?_, ?_, rfl⟩
  · rw [s.retireRecord_of_live k r hlive, dropWaiting_eq_map]
    rfl
  · rw [← State.use_fresh, view, Use.fresh_retire, if_pos rfl]
  · rw [← State.use_owned, view]
    have count := s.use.owned_retire k r r.owner
    rwa [s.use_liveAt, hlive, ownedAt_some, if_pos rfl] at count

/-! ## The charge -/

/-- The tenure with a completed cycle counted (R101). -/
def Tenure.counted (t : Tenure) (cost : Nat) : Tenure := { t with usage := min 65535 (t.usage + cost), idleTicks := 0 }

/-- The state with a cycle counted and the drawing record's credit reduced, before any standing or yield. -/
def State.charged (s : State) (t : Tenure) (h : Handle) (r : Reservation) (cost : Nat) : State :=
  (s.setTenure (some (t.counted cost))).setLive h.slot { r with credit := r.credit - cost }

theorem State.charge_of_drawing (s : State) (t : Tenure) (h : Handle) (cost : Nat) (ht : s.tenure = some t)
    (hd : t.drawing = some h) :
    s.charge cost = State.testYield ((s.setTenure (some (t.counted cost))).chargeRecord h cost) := by
  simp only [State.charge, ht, hd, Tenure.counted]

theorem State.chargeRecord_unspent (s : State) (h : Handle) (r : Reservation) (cost : Nat) (hf : s.fresh h = some r)
    (hc : ¬(0 < r.credit ∧ r.credit ≤ cost)) :
    s.chargeRecord h cost = s.setLive h.slot { r with credit := r.credit - cost } := by
  simp only [State.chargeRecord, hf, Nat.sub_eq_zero_iff_le, if_neg hc]

theorem State.chargeRecord_spent_fixed (s : State) (h : Handle) (r : Reservation) (cost : Nat) (hf : s.fresh h = some r)
    (hc : 0 < r.credit ∧ r.credit ≤ cost) (hcls : r.cls = .fixed) :
    s.chargeRecord h cost = (s.setLive h.slot { r with credit := r.credit - cost }).raiseYield .spent := by
  simp only [State.chargeRecord, hf, Nat.sub_eq_zero_iff_le, if_pos hc]
  split
  · rfl
  · simp_all
  · simp_all

theorem State.chargeRecord_spent_elastic (s : State) (t : Tenure) (h : Handle) (r : Reservation) (cost : Nat)
    (ht : s.tenure = some t) (hf : s.fresh h = some r) (hc : 0 < r.credit ∧ r.credit ≤ cost) (hcls : r.cls = .elastic) :
    s.chargeRecord h cost =
      (s.setLive h.slot { r with credit := r.credit - cost }).setTenure (some { t with standing := .three }) := by
  simp only [State.chargeRecord, hf, Nat.sub_eq_zero_iff_le, if_pos hc, State.setLive_tenure, ht]
  split <;> simp_all

/-- A yield that may not be asserted is not. -/
theorem State.testYield_of_not_mayYield (s : State) (t : Tenure) (ht : s.tenure = some t) (h : s.mayYield t = false) :
    s.testYield = s := by
  simp [State.testYield, ht, h]

theorem State.mayYield_assertYield (s : State) (t t' : Tenure) (r : YieldReason) (h : t'.holder = t.holder) :
    (s.assertYield t r).mayYield t' = false := by
  simp [State.mayYield, State.assertYield, State.port_setPort, h]

/-- The charge that takes a FIXED record's credit to 0 from above 0 (R102). -/
theorem State.charge_spent_fixed (s : State) (t : Tenure) (h : Handle) (r : Reservation) (cost : Nat)
    (ht : s.tenure = some t) (hd : t.drawing = some h) (hf : s.fresh h = some r) (hpos : 0 < r.credit)
    (hle : r.credit ≤ cost) (hcls : r.cls = .fixed) :
    s.charge cost =
      if s.mayYield t = true then (s.charged t h r cost).assertYield (t.counted cost) .spent
      else s.charged t h r cost := by
  have hten : (s.charged t h r cost).tenure = some (t.counted cost) := rfl
  have hmay : (s.charged t h r cost).mayYield (t.counted cost) = s.mayYield t := rfl
  rw [s.charge_of_drawing t h cost ht hd,
    State.chargeRecord_spent_fixed (s.setTenure (some (t.counted cost))) h r cost hf ⟨hpos, hle⟩ hcls]
  change State.testYield ((s.charged t h r cost).raiseYield .spent) = _
  simp only [State.raiseYield, hten, hmay]
  split
  · exact State.testYield_of_not_mayYield _ _ rfl (State.mayYield_assertYield _ _ _ _ rfl)
  · rename_i hm
    exact State.testYield_of_not_mayYield _ _ hten (by simpa [hmay] using hm)

/-- Settles O15: the charge by the class and the credit of the drawing record, and by the state of the holder. -/
theorem chargeOfCompletedCycle : Obligations.ChargeOfCompletedCycle := by
  intro s t cost ht
  refine ⟨fun hd => ?_, fun h r hd hf hc => ?_, fun h r hd hf hpos hle hcls => ?_, fun h r hd hf hpos hle hcls => ?_⟩
  · simp only [State.charge, ht, hd]
    rfl
  · rw [s.charge_of_drawing t h cost ht hd,
      State.chargeRecord_unspent (s.setTenure (some (t.counted cost))) h r cost hf hc]
    rfl
  · have hzero : r.credit - cost = 0 := Nat.sub_eq_zero_of_le hle
    rw [s.charge_spent_fixed t h r cost ht hd hf hpos hle hcls]
    constructor
    · rintro ⟨hg, hy⟩
      rw [if_pos (by simp [State.mayYield, hg, hy]), State.charged, hzero]
      rfl
    · intro hn
      rw [if_neg (by simpa [State.mayYield, Classical.or_iff_not_imp_left] using hn), State.charged, hzero]
      rfl
  · rw [s.charge_of_drawing t h cost ht hd,
      State.chargeRecord_spent_elastic (s.setTenure (some (t.counted cost))) (t.counted cost) h r cost rfl hf
        ⟨hpos, hle⟩ hcls,
      Nat.sub_eq_zero_of_le hle]
    rfl

end Sys2Proof.Machine

namespace Sys2Proof.Machine

/-! # The takes of openings -/

/-- A take of an owner command that is due runs its body without the oldest port in the queue. -/
theorem exec_of_take (s : State) (p : Port) (rest : List Port) (c : Vector Byte 16) (code : Byte)
    (h : s.takeDue p rest c code) (body : Port → Vector Byte 16 → State → State) :
    Host.Outcome.next (s.take (fun b => decide (b = code)) body) =
      (Host.Outcome.next (body p c { s with cmdQueue := rest }) : Result) := by
  rw [s.take_due p rest c code h _ (decide_eq_true rfl) body]

/-- A take of a supervisor command that is due, likewise. -/
theorem exec_of_takeSupervisor (s : State) (rest : List Port) (c : Vector Byte 16) (code : Byte)
    (h : s.takeDue s.supervisor rest c code) (body : Port → Vector Byte 16 → State → State) :
    Host.Outcome.next (s.takeSupervisor code body) =
      (Host.Outcome.next (body s.supervisor c { s with cmdQueue := rest }) : Result) := by
  rw [s.takeSupervisor_of_due rest c code h body]

/-! ## The slot of an opening -/

theorem State.openingSlot_tableFull (s : State) (owner : Port) (t : OpenTerms) (h : ∀ k, s.liveAt k ≠ none) :
    s.openingSlot owner t = .error .tableFull := by
  simp [State.openingSlot, s.lowestFree_none h]

section
variable (s : State) (owner : Port) (t : OpenTerms) (k : Slot)

theorem State.openingSlot_portLimit (h : s.isLowestFree k) (hn : 8 ≤ s.owned owner) :
    s.openingSlot owner t = .error .portLimit := by
  simp [State.openingSlot, s.lowestFree_some k h, Config.portLimit, hn]

theorem State.openingSlot_refused (h : s.isLowestFree k) (hn : s.owned owner < 8) (e : ReplyStatus)
    (he : s.ruling t.share t.preempt = some e) : s.openingSlot owner t = .error e := by
  simp [State.openingSlot, s.lowestFree_some k h, Config.portLimit, Nat.not_le.2 hn, he]

theorem State.openingSlot_admitted (h : s.isLowestFree k) (hn : s.owned owner < 8)
    (he : s.ruling t.share t.preempt = none) : s.openingSlot owner t = .ok k := by
  simp [State.openingSlot, s.lowestFree_some k h, Config.portLimit, Nat.not_le.2 hn, he]

end

section
variable (s : State) (raise : Nat) (preempt : Bool)

theorem State.ruling_capacity (h : s.commitLimit < s.committed + raise) : s.ruling raise preempt = some .capacity := by
  simp [State.ruling, h]

theorem State.ruling_preemptLimit (h : s.committed + raise ≤ s.commitLimit) (hp : preempt = true)
    (h' : s.preemptLimit < s.preemptTotal + raise) : s.ruling raise preempt = some .preemptLimit := by
  simp [State.ruling, Nat.not_lt.2 h, hp, h']

theorem State.ruling_none (h : s.committed + raise ≤ s.commitLimit)
    (h' : preempt = true → s.preemptTotal + raise ≤ s.preemptLimit) : s.ruling raise preempt = none := by
  rw [State.ruling, if_neg (Nat.not_lt.2 h), if_neg fun hx => Nat.not_lt.2 (h' hx.1) hx.2]

end

/-- The state and the reply bytes of an admitted opening, written out (R12, R160). -/
theorem State.admitOpening_eq (s : State) (k : Slot) (owner : Port) (x : OpenTerms) :
    s.admitOpening k owner x =
      ({ s with
          table := bankSet s.table k
            ((s.record k).holding
              { state := if (s.port owner).state = .fenced then .suspended else .active
                owner := owner, cls := x.cls, preempt := x.preempt, share := x.share, pendingShare := none
                maxTenure := x.maxTenure, priority := x.priority, leaseLength := x.leaseLength
                leaseRemaining := x.leaseLength, credit := 0
                causes := { command := false, fence := decide ((s.port owner).state = .fenced) }
                shortfall := 0, tag := x.tag })
          committed := s.committed + x.share
          preemptTotal := s.preemptTotal + (if x.preempt then x.share else 0) },
        handleBytes { slot := k, generation := (s.record k).generation } ++
          [if (s.port owner).state = .fenced then 0x02 else 0x01]) := by
  by_cases h : (s.port owner).state = .fenced <;>
    simp [State.admitOpening, State.newReservation, openedReservation, h, liveStateCode] <;>
    exact ⟨rfl, rfl⟩

/-! ## OPEN -/

theorem openTake_error (p : Port) (c : Vector Byte 16) (s : State) (x : OpenTerms) (e : ReplyStatus)
    (hx : openTerms false c = some x) (he : s.openingSlot p x = .error e) : openTake p c s = s.refuse p e := by
  simp [openTake, hx, he]

theorem openTake_ok (p : Port) (c : Vector Byte 16) (s : State) (x : OpenTerms) (k : Slot)
    (hx : openTerms false c = some x) (hk : s.openingSlot p x = .ok k) :
    openTake p c s = (s.admitOpening k p x).1.complete p .done 1 (s.admitOpening k p x).2 := by
  simp [openTake, hx, hk]

/-- Settles O35: the checks of an opening in order, then the record in the lowest FREE slot. -/
theorem openWritesTheLowestFreeSlot : Obligations.OpenWritesTheLowestFreeSlot := by
  intro s p rest c due
  have run : exec .takeOpen s = .next (openTake p c { s with cmdQueue := rest }) := exec_of_take s p rest c _ due openTake
  refine ⟨fun hx => ?_, fun x hx => ⟨fun hfull => ?_, fun k hk => ⟨fun hn => ?_, fun hn hcap => ?_,
    fun hn hcap hp hlim => ?_, fun hn hcap hlim => ?_⟩⟩⟩
  · simp [run, openTake, hx]
  · rw [run, openTake_error p c { s with cmdQueue := rest } x _ hx (State.openingSlot_tableFull _ _ _ hfull)]
  · rw [run, openTake_error p c { s with cmdQueue := rest } x _ hx (State.openingSlot_portLimit _ _ _ k hk hn)]
  · have ruled := State.openingSlot_refused { s with cmdQueue := rest } p x k hk hn _
      (State.ruling_capacity _ _ _ hcap)
    rw [run, openTake_error p c { s with cmdQueue := rest } x _ hx ruled]
  · have ruled := State.openingSlot_refused { s with cmdQueue := rest } p x k hk hn _
      (State.ruling_preemptLimit _ _ _ hcap hp hlim)
    rw [run, openTake_error p c { s with cmdQueue := rest } x _ hx ruled]
  · have ruled := State.openingSlot_admitted { s with cmdQueue := rest } p x k hk hn
      (State.ruling_none _ _ _ hcap hlim)
    rw [run, openTake_ok p c { s with cmdQueue := rest } x k hx ruled, State.admitOpening_eq]
    rfl

/-! ## OPEN_FOR -/

theorem openForTake_error (p q : Port) (c : Vector Byte 16) (s : State) (x : OpenTerms) (e : ReplyStatus)
    (hq : portField c = some q) (hx : openTerms true c = some x) (ha : (s.port q).state ≠ .detached)
    (he : s.openingSlot q x = .error e) : openForTake p c s = s.refuse p e := by
  simp [openForTake, hq, hx, ha, he]

theorem openForTake_ok (p q : Port) (c : Vector Byte 16) (s : State) (x : OpenTerms) (k : Slot)
    (hq : portField c = some q) (hx : openTerms true c = some x) (ha : (s.port q).state ≠ .detached)
    (hk : s.openingSlot q x = .ok k) :
    openForTake p c s =
      ((s.admitOpening k q x).1.place q .opened (.handle (s.handleAt k))).complete p .done 1 (s.admitOpening k q x).2 := by
  simp [openForTake, hq, hx, ha, hk]

theorem openForTake_badField (p : Port) (c : Vector Byte 16) (s : State)
    (h : 8 ≤ field8 c 0x0B ∨ openTerms true c = none) : openForTake p c s = s.refuse p .badField := by
  unfold openForTake
  split
  · rename_i q t hq ht
    rcases h with h | h
    · rw [portField_none c h] at hq; cases hq
    · rw [h] at ht; cases ht
  · rfl

/-- Settles O37: as O35 for the port named, with OPENED placed for it. -/
theorem openForWritesTheLowestFreeSlot : Obligations.OpenForWritesTheLowestFreeSlot := by
  intro s rest c due
  have run : exec .takeOpenFor s = .next (openForTake s.supervisor c { s with cmdQueue := rest }) :=
    exec_of_takeSupervisor s rest c _ due openForTake
  refine ⟨fun h => by rw [run, openForTake_badField _ _ _ h], fun q x hq hx => ?_⟩
  have hq := portField_some c q hq
  refine ⟨fun hd => ?_, fun ha hfull => ?_, fun k ha hk => ⟨fun hn => ?_, fun hn hcap => ?_, fun hn hcap hp hlim => ?_,
    fun hn hcap hlim => ?_⟩⟩
  · have hd' : (State.port { s with cmdQueue := rest } q).state = .detached := hd
    simp [run, openForTake, hq, hx, hd']
  · rw [run, openForTake_error _ q c { s with cmdQueue := rest } x _ hq hx ha (State.openingSlot_tableFull _ _ _ hfull)]
  · rw [run, openForTake_error _ q c { s with cmdQueue := rest } x _ hq hx ha (State.openingSlot_portLimit _ _ _ k hk hn)]
  · have ruled := State.openingSlot_refused { s with cmdQueue := rest } q x k hk hn _
      (State.ruling_capacity _ _ _ hcap)
    rw [run, openForTake_error _ q c { s with cmdQueue := rest } x _ hq hx ha ruled]
  · have ruled := State.openingSlot_refused { s with cmdQueue := rest } q x k hk hn _
      (State.ruling_preemptLimit _ _ _ hcap hp hlim)
    rw [run, openForTake_error _ q c { s with cmdQueue := rest } x _ hq hx ha ruled]
  · have ruled := State.openingSlot_admitted { s with cmdQueue := rest } q x k hk hn
      (State.ruling_none _ _ _ hcap hlim)
    rw [run, openForTake_ok _ q c { s with cmdQueue := rest } x k hq hx ha ruled, State.admitOpening_eq]
    rfl

end Sys2Proof.Machine

namespace Sys2Proof.Machine

/-! # The takes that name a handle -/

/-! ## RENEW -/

theorem renewTake_stale (p : Port) (c : Vector Byte 16) (s : State) (h : s.fresh (handleField c) = none) :
    renewTake p c s = s.refuse p .stale := by
  simp [renewTake, h]

theorem renewTake_notOwner (p : Port) (c : Vector Byte 16) (s : State) (r : Reservation)
    (h : s.fresh (handleField c) = some r) (ho : r.owner ≠ p) (hs : p ≠ s.supervisor) :
    renewTake p c s = s.refuse p .notOwner := by
  simp [renewTake, h, ho, hs]

theorem renewTake_done (p : Port) (c : Vector Byte 16) (s : State) (r : Reservation)
    (h : s.fresh (handleField c) = some r) (ho : r.owner = p ∨ p = s.supervisor) (r' : Reservation)
    (hr : renewReservation (decide ((s.port r.owner).state = .fenced)) r = r') :
    renewTake p c s =
      (s.setLive (handleField c).slot r').complete p .done 1 [liveStateCode r'.state, lowByte r'.leaseRemaining] := by
  have hn : ¬(r.owner ≠ p ∧ p ≠ s.supervisor) := fun x => ho.elim x.1 x.2
  simp only [renewTake, h, if_neg hn, hr]

/-- The record after a RENEW, case by case (R19). -/
theorem renewReservation_eq (fenced : Prop) [Decidable fenced] (r r' : Reservation)
    (h0 : r.leaseLength = 0 → r' = r)
    (h1 : r.leaseLength ≠ 0 → r.state ≠ .lapsed → r' = { r with leaseRemaining := r.leaseLength })
    (h2 : r.leaseLength ≠ 0 → r.state = .lapsed → ¬fenced →
      r' = { r with state := .active, leaseRemaining := r.leaseLength })
    (h3 : r.leaseLength ≠ 0 → r.state = .lapsed → fenced →
      r' = { r with state := .suspended, causes := { r.causes with fence := true }, leaseRemaining := r.leaseLength }) :
    renewReservation (decide fenced) r = r' := by
  by_cases hl : r.leaseLength = 0
  · simp [renewReservation, hl, h0 hl]
  · rw [renewReservation, if_neg hl]
    split
    · rename_i hst; exact (h1 hl (by simp [hst])).symm
    · rename_i hst; exact (h1 hl (by simp [hst])).symm
    · rename_i hst
      by_cases hf : fenced
      · rw [if_pos (decide_eq_true hf), h3 hl hst hf]
      · rw [if_neg (by simpa using hf), h2 hl hst hf]

/-- Settles O39: the refusals, then the lease reloaded by the state of the record. -/
theorem renewReloadsTheLease : Obligations.RenewReloadsTheLease := by
  intro s p rest c due
  have run : exec .takeRenew s = .next (renewTake p c { s with cmdQueue := rest }) :=
    exec_of_take s p rest c _ due renewTake
  refine ⟨fun h => ?_, fun r h => ⟨fun ho hs => ?_, fun ho r' h0 h1 h2 h3 => ?_⟩⟩
  · rw [run, renewTake_stale p c { s with cmdQueue := rest } h]
  · rw [run, renewTake_notOwner p c { s with cmdQueue := rest } r h ho hs]
  · rw [run, renewTake_done p c { s with cmdQueue := rest } r h ho r' (renewReservation_eq _ r r' h0 h1 h2 h3)]
    rfl

/-! ## CLOSE and REVOKE -/

/-- The handle of a command by its two bytes (R197, R198). -/
theorem handleField_bits (c : Vector Byte 16) : (handleField c).slot.val = (byteAt c 0x0C).toNat % 32 ∧
    (handleField c).generation.val = (byteAt c 0x0C).toNat / 32 + 8 * (byteAt c 0x0D).toNat := by
  have hl := field8_lt c 0x0C
  have hh := field8_lt c 0x0D
  simp only [handleField, handleOfWord, field16, field8, Nat.reduceAdd] at hl hh ⊢
  omega

/-- Settles O40: the refusals, then the retirement, with REVOKED placed by REVOKE. -/
theorem closeAndRevokeRetireTheRecord : Obligations.CloseAndRevokeRetireTheRecord := by
  refine ⟨handleField_bits, fun s p rest c => ⟨fun due => ?_, fun due => ?_⟩⟩
  · have run : exec .takeClose s = .next (closeTake p c { s with cmdQueue := rest }) :=
      exec_of_take s p rest c _ due closeTake
    have fresh : State.fresh { s with cmdQueue := rest } (handleField c) = s.fresh (handleField c) := rfl
    refine ⟨fun h => ?_, fun r h => ⟨fun ho => ?_, fun ho => ?_⟩⟩ <;> rw [run]
    · simp [closeTake, fresh, h]
    · simp [closeTake, fresh, h, ho]
    · simp [closeTake, fresh, h, ho]
  · have run : exec .takeRevoke s = .next (revokeTake s.supervisor c { s with cmdQueue := rest }) :=
      exec_of_takeSupervisor s rest c _ due revokeTake
    have fresh : State.fresh { s with cmdQueue := rest } (handleField c) = s.fresh (handleField c) := rfl
    refine ⟨fun h => ?_, fun r h => ?_⟩ <;> rw [run]
    · simp [revokeTake, fresh, h]
    · simp [revokeTake, fresh, h]

/-! ## SUSPEND and RESUME -/

theorem causesByte_command (r : Reservation) :
    causesByte { r.causes with command := true } = if r.causes.fence then 0x03 else 0x01 := by
  cases h : r.causes.fence <;> simp [causesByte, h]

theorem suspendTake_done (p : Port) (c : Vector Byte 16) (s : State) (r : Reservation)
    (h : s.fresh (handleField c) = some r) (hl : r.state ≠ .lapsed) (hc : r.causes.command = false) :
    suspendTake p c s =
      ((((s.setLive (handleField c).slot (suspendReservation r)).withdrawDrawing (handleField c) r.cls).testYield).place
        r.owner .suspended (.handle (handleField c))).complete p .done 1
        [0x02, if r.causes.fence then 0x03 else 0x01] := by
  have hn : ¬(r.state = .lapsed ∨ r.causes.command = true) := by simp [hl, hc]
  simp only [suspendTake, h, if_neg hn]
  rw [← causesByte_command]
  rfl

theorem resumeReservation_unfenced (r : Reservation) (h : r.causes.fence = false) :
    resumeReservation r = { r with state := .active, causes := { r.causes with command := false } } := by
  simp [resumeReservation, h]

theorem resumeReservation_fenced (r : Reservation) (h : r.causes.fence = true) :
    resumeReservation r = { r with causes := { r.causes with command := false } } := by
  simp [resumeReservation, h]

theorem resumeTake_done (p : Port) (c : Vector Byte 16) (s : State) (r : Reservation)
    (h : s.fresh (handleField c) = some r) (hc : r.causes.command = true) :
    resumeTake p c s =
      ((s.setLive (handleField c).slot (resumeReservation r)).placeIf r.owner
        (if r.causes.fence then none else some .resumed) (.handle (handleField c))).complete p .done 1
        [liveStateCode (resumeReservation r).state, causesByte (resumeReservation r).causes] := by
  simp [resumeTake, h, hc]

theorem resumeTake_unfenced (p : Port) (c : Vector Byte 16) (s : State) (r : Reservation)
    (h : s.fresh (handleField c) = some r) (hc : r.causes.command = true) (hf : r.causes.fence = false) :
    resumeTake p c s =
      ((s.setLive (handleField c).slot
        { r with state := .active, causes := { r.causes with command := false } }).place r.owner .resumed
          (.handle (handleField c))).complete p .done 1 [0x01, 0x00] := by
  have bytes : causesByte { r.causes with command := false } = 0x00 := by simp [causesByte, hf]
  rw [resumeTake_done p c s r h hc, resumeReservation_unfenced r hf, bytes]
  simp only [hf]
  rfl

theorem resumeTake_fenced (p : Port) (c : Vector Byte 16) (s : State) (r : Reservation)
    (h : s.fresh (handleField c) = some r) (hc : r.causes.command = true) (hf : r.causes.fence = true) :
    resumeTake p c s =
      (s.setLive (handleField c).slot { r with causes := { r.causes with command := false } }).complete p .done 1
        [liveStateCode r.state, 0x02] := by
  have bytes : causesByte { r.causes with command := false } = 0x02 := by simp [causesByte, hf]
  rw [resumeTake_done p c s r h hc, resumeReservation_fenced r hf, bytes]
  simp only [hf]
  rfl

/-- Settles O47: the refusals, then COMMAND added or removed. -/
theorem suspendAndResumeMoveTheCommandCause : Obligations.SuspendAndResumeMoveTheCommandCause := by
  rintro s rest c _ rfl
  have fresh : State.fresh { s with cmdQueue := rest } (handleField c) = s.fresh (handleField c) := rfl
  refine ⟨fun due => ?_, fun due => ?_⟩
  · have run : exec .takeSuspend s = .next (suspendTake s.supervisor c { s with cmdQueue := rest }) :=
      exec_of_takeSupervisor s rest c _ due suspendTake
    refine ⟨fun h => ?_, fun r h => ⟨fun hst => ?_, fun hl hc => ?_⟩⟩ <;> rw [run]
    · simp [suspendTake, fresh, h]
    · simp [suspendTake, fresh, h, hst]
    · rw [suspendTake_done _ c { s with cmdQueue := rest } r h hl hc]
      rfl
  · have run : exec .takeResume s = .next (resumeTake s.supervisor c { s with cmdQueue := rest }) :=
      exec_of_takeSupervisor s rest c _ due resumeTake
    refine ⟨fun h => ?_, fun r h => ⟨fun hc => ?_, fun hc hf => ?_, fun hc hf => ?_⟩⟩ <;> rw [run]
    · simp [resumeTake, fresh, h]
    · simp [resumeTake, fresh, h, hc]
    · rw [resumeTake_unfenced _ c { s with cmdQueue := rest } r h hc hf]
      rfl
    · rw [resumeTake_fenced _ c { s with cmdQueue := rest } r h hc hf]
      rfl

/-! # The visit of a RESET_TABLE walk -/

theorem execResetTableVisit_running (s : State) (w : Walk) (retired : Nat) (discarded : Bool) (hr : s.rstLow = false)
    (hw : s.walk = some w) (hk : w.kind = .resetTable retired discarded) :
    exec .resetTableVisit s = .next (s.resetTableStep w retired discarded) := by
  have running : s.resetting = true := by simp [State.resetting, hw, hk]
  have step : s.walkStep = s.resetTableStep w retired discarded := by simp [State.walkStep, hw, hk]
  change execResetTableVisit s = _
  rw [execResetTableVisit, if_neg (by simp [hr, running]), step]

/-- Settles O46: the visit retires the record in its slot; after S31 the notices and the reply. -/
theorem resetTableVisitRetiresTheRecord : Obligations.ResetTableVisitRetiresTheRecord := by
  intro s w retired retired' discarded hr hw hk hcount
  have count : (if (s.liveAt w.next).isSome then retired + 1 else retired) = retired' := by
    rw [hcount]; cases s.liveAt w.next <;> rfl
  refine ⟨fun j hj => ?_, ?_⟩
  · rw [execResetTableVisit_running s w retired discarded hr hw hk]
    simp only [State.resetTableStep, nextSlot_some w.next j hj, count]
  · rintro hlast _ rfl
    rw [execResetTableVisit_running s w retired discarded hr hw hk]
    simp only [State.resetTableStep, State.placeTableReset, nextSlot_none w.next hlast, count]
    refine ⟨fun hd => ?_, fun hd => ?_⟩
    · rw [if_pos hd]
    · rw [if_neg (by simp [hd])]
      rfl

/-! # Power-on reset -/

@[simp] theorem reset_liveAt (k : Slot) : State.reset.liveAt k = none := by
  simp [State.liveAt, State.record, State.reset, TableRecord.initial]

@[simp] theorem reset_port (p : Port) : State.reset.port p = PortRecord.initial := by
  simp [State.port, State.reset]

@[simp] theorem reset_slot (p : Port) : State.reset.slot p = CommandSlot.initial := by
  simp [State.slot, State.reset]

theorem reset_liveSum (f : Reservation → Nat) : State.reset.liveSum f = 0 := by
  simp [State.liveSum]

theorem reset_account : State.reset.accountExact ∧ State.reset.limitsKept := by
  refine ⟨⟨(reset_liveSum _).symm, (reset_liveSum _).symm⟩, ⟨Nat.zero_le _, Nat.zero_le _⟩, ?_⟩
  intro f hf
  cases hf

theorem reset_time : State.reset.timeSound ∧ State.reset.walkOnTime := by
  refine ⟨⟨by decide, ?_, by decide, fun h => absurd rfl h⟩, ?_⟩
  · intro f hf
    cases hf
  · intro w hw
    cases hw

theorem reset_records : State.reset.recordsSound := by
  intro k r h
  simp at h

theorem reset_notices : State.reset.noticesSound := by
  intro p
  simp [State.reset, NoticeSet.initial, NoticeSet.sound]

theorem reset_bus : State.reset.busSound ∧ State.reset.waitingSound := by
  have cycles : State.reset.cycles = [] := rfl
  have holder : State.reset.holder = none := rfl
  refine ⟨⟨?_, ?_, ?_, ?_, ?_, ?_, ?_⟩, ?_⟩
  · intro p; simp [PortRecord.initial, PortState.holdsBus, holder]
  · intro t ht; cases ht
  · simp [cycles]
  · simp [cycles]
  · exact fun _ => cycles
  · simp [cycles]
  · intro p hp; simp [PortRecord.initial] at hp
  · intro p; simp [State.reset, State.port, PortRecord.initial]

theorem reset_handles : State.reset.handlesSound := by
  refine ⟨?_, ?_, ?_⟩
  · intro p c h hb; simp [State.binding, State.reset] at hb
  · intro p e h he; simp [State.reset] at he
  · intro t h ht; cases ht

theorem reset_commands : State.reset.commandsSound := by
  have queue : State.reset.cmdQueue = [] := rfl
  have walk : State.reset.walk = none := rfl
  refine ⟨?_, ?_, ?_, ?_, ?_⟩
  · simp [queue]
  · intro p; simp [queue, CommandSlot.initial]
  · intro p; simp [walk, CommandSlot.initial]
  · intro p; simp [CommandSlot.initial]
  · intro p; simp [CommandSlot.replySound, CommandSlot.initial]

theorem reset_owners : State.reset.ownersSound := by
  refine ⟨?_, ?_, ?_⟩
  · intro k r h; simp at h
  · intro p; simp [State.owned]
  · intro p h; cases h

/-- Settles O60: every bank of the reset state holds its initial item. -/
theorem resetKeepsEveryLaw : Obligations.ResetKeepsEveryLaw :=
  ⟨reset_account.1, reset_account.2, reset_time.1, reset_time.2, reset_records, reset_notices, reset_bus.1, reset_bus.2,
    reset_handles, reset_commands, reset_owners, fun t ht => by cases ht⟩

end Sys2Proof.Machine

namespace Sys2Proof.Machine

/-! # The take of MODIFY -/

/-- The fields the mask names are out of range (R162). -/
def BadChanges (c : Vector Byte 16) : Prop :=
  byteAt c 0x0B = 0 ∨ 32 ≤ (byteAt c 0x0B).toNat ∨ ((byteAt c 0x0B).getLsbD 0 = true ∧ field16 c 0x03 = 0) ∨
    ((byteAt c 0x0B).getLsbD 1 = true ∧ (field16 c 0x05 = 0 ∨ 1023 < field16 c 0x05)) ∨
    ((byteAt c 0x0B).getLsbD 2 = true ∧ 3 < field8 c 0x07) ∨ ((byteAt c 0x0B).getLsbD 3 = true ∧ field8 c 0x08 = 0)

theorem namedOk_if (b : Bool) (n : Nat) (ok : Nat → Bool) :
    namedOk (if b then some n else none) ok = false ↔ b = true ∧ ok n = false := by
  cases b <;> simp [namedOk]

theorem changesInRange_eq_false (c : Vector Byte 16) : changesInRange c = false ↔ BadChanges c := by
  have mask : byteAt c 0x0B = 0 ↔ field8 c 0x0B = 0 := by
    rw [field8, ← BitVec.toNat_inj]; rfl
  simp only [changesInRange, rawChanges, Bool.and_eq_false_iff, namedOk_if, decide_eq_false_iff_not, BadChanges, mask,
    Nat.not_lt, Nat.not_le, Nat.le_zero_eq, or_assoc]
  rfl

section
variable (c : Vector Byte 16) (r : Reservation)

theorem changesInRange_eq_true (h : ¬BadChanges c) : changesInRange c = true := by
  simpa using mt (changesInRange_eq_false c).1 h

theorem preemptForbids_iff : preemptForbids (rawChanges c) r = true ↔
    r.preempt = true ∧ (byteAt c 0x0B).getLsbD 1 = true ∧ 32 < field16 c 0x05 := by
  simp only [preemptForbids, rawChanges, Bool.and_eq_true]
  cases (byteAt c 0x0B).getLsbD 1 <;> simp

theorem namesLease_iff : (rawChanges c).leaseLength.isSome = true ↔ (byteAt c 0x0B).getLsbD 3 = true := by
  simp only [rawChanges]
  cases (byteAt c 0x0B).getLsbD 3 <;> simp

theorem newPending_rawChanges : newPending (rawChanges c) r =
    if (byteAt c 0x0B).getLsbD 0 then (if field16 c 0x03 = r.share then none else some (field16 c 0x03))
    else r.pendingShare := by
  simp only [newPending, rawChanges]
  cases (byteAt c 0x0B).getLsbD 0 <;> rfl

/-- The record a MODIFY within the ranges writes (R163, R164). -/
theorem changeReservation_rawChanges (h : ¬BadChanges c) : changeReservation (rawChanges c) r =
    { r with
      pendingShare := newPending (rawChanges c) r
      maxTenure := if (byteAt c 0x0B).getLsbD 1 then field16 c 0x05 else r.maxTenure
      priority := if (byteAt c 0x0B).getLsbD 2 then Fin.ofNat 4 (field8 c 0x07) else r.priority
      leaseLength := if (byteAt c 0x0B).getLsbD 3 then field8 c 0x08 else r.leaseLength
      tag := if (byteAt c 0x0B).getLsbD 4 then BitVec.ofNat 16 (field16 c 0x09) else r.tag } := by
  have tenure : (rawChanges c).maxTenure.getD r.maxTenure =
      if (byteAt c 0x0B).getLsbD 1 then field16 c 0x05 else r.maxTenure := by
    simp only [rawChanges]; cases (byteAt c 0x0B).getLsbD 1 <;> rfl
  have lease : (rawChanges c).leaseLength.getD r.leaseLength =
      if (byteAt c 0x0B).getLsbD 3 then field8 c 0x08 else r.leaseLength := by
    simp only [rawChanges]; cases (byteAt c 0x0B).getLsbD 3 <;> rfl
  have tag : (rawChanges c).tag.getD r.tag =
      if (byteAt c 0x0B).getLsbD 4 then BitVec.ofNat 16 (field16 c 0x09) else r.tag := by
    simp only [rawChanges]; cases (byteAt c 0x0B).getLsbD 4 <;> rfl
  have priority : ((rawChanges c).priority.bind priorityOfCode).getD r.priority =
      if (byteAt c 0x0B).getLsbD 2 then Fin.ofNat 4 (field8 c 0x07) else r.priority := by
    simp only [rawChanges]
    cases hb : (byteAt c 0x0B).getLsbD 2 with
    | false => rfl
    | true =>
      have hle : field8 c 0x07 ≤ 3 := by
        refine Nat.not_lt.1 fun hlt => h ?_
        simp only [BadChanges, hb, hlt, and_self, true_or, or_true]
      simp only [if_true, Option.bind_some, (priorityOfCode_eq_some _ _).2 ⟨hle, rfl⟩, Option.getD_some]
  rw [changeReservation, tenure, lease, tag, priority]

theorem contribution_changed : (changeReservation (rawChanges c) r).contribution =
    max r.share ((newPending (rawChanges c) r).getD 0) := rfl

/-- A contribution rises only where a share is named (R36). -/
theorem namesShare_of_rise (h : r.contribution < max r.share ((newPending (rawChanges c) r).getD 0)) :
    (rawChanges c).share.isSome = true := by
  cases hs : (rawChanges c).share with
  | some n => rfl
  | none =>
    simp only [newPending, hs] at h
    exact absurd h (lt_irrefl _)

end

/-! ## The checks in order -/

section
variable (p : Port) (c : Vector Byte 16) (s : State)

theorem modifyTake_badField (h : BadChanges c) : modifyTake p c s = s.refuse p .badField := by
  simp only [modifyTake, (changesInRange_eq_false c).2 h, if_true]

theorem modifyTake_stale (h : ¬BadChanges c) (hf : s.fresh (handleField c) = none) :
    modifyTake p c s = s.refuse p .stale := by
  simp only [modifyTake, changesInRange_eq_true c h, Bool.true_eq_false, if_false, hf]

variable (r : Reservation)

theorem modifyTake_preempt (h : ¬BadChanges c) (hf : s.fresh (handleField c) = some r)
    (hp : r.preempt = true ∧ (byteAt c 0x0B).getLsbD 1 = true ∧ 32 < field16 c 0x05) :
    modifyTake p c s = s.refuse p .badField := by
  simp only [modifyTake, changesInRange_eq_true c h, Bool.true_eq_false, if_false, hf,
    (preemptForbids_iff c r).2 hp, if_true]

/-- A MODIFY past its field checks, of a fresh handle. -/
def ModifyNames : Prop := ¬BadChanges c ∧ s.fresh (handleField c) = some r ∧
  ¬(r.preempt = true ∧ (byteAt c 0x0B).getLsbD 1 = true ∧ 32 < field16 c 0x05)

theorem modifyTake_of_names (h : ModifyNames c s r) : modifyTake p c s =
    if r.owner ≠ p ∧ p ≠ s.supervisor then s.refuse p .notOwner
    else if r.state = .lapsed ∨ ((byteAt c 0x0B).getLsbD 3 = true ∧ r.leaseLength = 0) then s.refuse p .wrongState
    else (s.changeRuling (rawChanges c) r).elim
      ((s.applyChanges (rawChanges c) (handleField c) r).complete p .done 0 []) (s.refuse p) := by
  obtain ⟨h, hf, hp⟩ := h
  simp only [modifyTake, changesInRange_eq_true c h, Bool.true_eq_false, if_false, hf,
    mt (preemptForbids_iff c r).1 hp, namesLease_iff]
  cases s.changeRuling (rawChanges c) r <;> rfl

theorem modifyTake_notOwner (h : ModifyNames c s r) (ho : r.owner ≠ p) (hs : p ≠ s.supervisor) :
    modifyTake p c s = s.refuse p .notOwner := by
  rw [modifyTake_of_names p c s r h, if_pos ⟨ho, hs⟩]

theorem modifyTake_wrongState (h : ModifyNames c s r) (ho : r.owner = p ∨ p = s.supervisor)
    (hw : r.state = .lapsed ∨ ((byteAt c 0x0B).getLsbD 3 = true ∧ r.leaseLength = 0)) :
    modifyTake p c s = s.refuse p .wrongState := by
  rw [modifyTake_of_names p c s r h, if_neg fun x => ho.elim x.1 x.2, if_pos hw]

/-- A MODIFY past every check but the ruling. -/
def ModifyMay : Prop := ModifyNames c s r ∧ (r.owner = p ∨ p = s.supervisor) ∧ r.state ≠ .lapsed ∧
  ¬((byteAt c 0x0B).getLsbD 3 = true ∧ r.leaseLength = 0)

theorem modifyTake_refused (h : ModifyMay p c s r) (x : ReplyStatus) (hx : s.changeRuling (rawChanges c) r = some x) :
    modifyTake p c s = s.refuse p x := by
  obtain ⟨hn, ho, hl, hw⟩ := h
  rw [modifyTake_of_names p c s r hn, if_neg fun y => ho.elim y.1 y.2, if_neg fun y => y.elim hl hw, hx, Option.elim_some]

theorem modifyTake_admitted (h : ModifyMay p c s r) (hx : s.changeRuling (rawChanges c) r = none) :
    modifyTake p c s = (s.applyChanges (rawChanges c) (handleField c) r).complete p .done 0 [] := by
  obtain ⟨hn, ho, hl, hw⟩ := h
  rw [modifyTake_of_names p c s r hn, if_neg fun y => ho.elim y.1 y.2, if_neg fun y => y.elim hl hw, hx, Option.elim_none]

/-! ## The ruling and the change -/

/-- The ruling on a risen contribution is that on the rise (R36). -/
theorem State.changeRuling_rise (n : Nat) (hn : (changeReservation (rawChanges c) r).contribution = n)
    (h : r.contribution < n) : s.changeRuling (rawChanges c) r = s.ruling (n - r.contribution) r.preempt := by
  subst hn
  simp only [State.changeRuling, namesShare_of_rise c r h, h, true_and, if_true]

theorem State.changeRuling_no_rise (n : Nat) (hn : (changeReservation (rawChanges c) r).contribution = n)
    (h : ¬r.contribution < n) : s.changeRuling (rawChanges c) r = none := by
  subst hn
  simp only [State.changeRuling, h, and_false, if_false]

/-- The change reaches the Tenure Monitor where it says so (R85, R109). -/
theorem State.changeReaches_iff (h : Handle) : s.changeReaches (rawChanges c) h r = true ↔
    ((byteAt c 0x0B).getLsbD 1 = true ∧ s.tenure.bind (·.drawing) = some h) ∨
      ((byteAt c 0x0B).getLsbD 2 = true ∧ (bankGet s.waiting r.owner).bind (·.handle) = some h) := by
  have drawn : (s.tenure.any fun t => decide (t.drawing = some h)) = true ↔ s.tenure.bind (·.drawing) = some h := by
    cases s.tenure <;> simp
  have entered : ((bankGet s.waiting r.owner).any fun e => decide (e.handle = some h)) = true ↔
      (bankGet s.waiting r.owner).bind (·.handle) = some h := by
    cases bankGet s.waiting r.owner <;> simp
  simp only [State.changeReaches, Bool.or_eq_true, Bool.and_eq_true, drawn, entered, rawChanges]
  cases (byteAt c 0x0B).getLsbD 1 <;> cases (byteAt c 0x0B).getLsbD 2 <;> simp

theorem State.applyChanges_eq (ch : Changes) (h : Handle) (u : State)
    (hu : u = (s.replaceContribution r (changeReservation ch r)).setLive h.slot (changeReservation ch r)) :
    s.applyChanges ch h r = if s.changeReaches ch h r then u.testYield else u := by
  subst hu; rfl

end

/-- Settles O38: the checks in order, the ruling on a rise, then every named field together. -/
theorem modifyChangesEveryNamedField : Obligations.ModifyChangesEveryNamedField := by
  rintro s p rest c due _ _ _ _ _ _ bad rfl rfl rfl rfl rfl rfl hbad
  have hbad : bad ↔ BadChanges c := hbad
  have run : exec .takeModify s = .next (modifyTake p c { s with cmdQueue := rest }) :=
    exec_of_take s p rest c _ due modifyTake
  rw [run, hbad]
  refine ⟨fun hb => ?_, fun hb hf => ?_, fun r hb hf => ⟨fun hp => ?_, fun hp ho hs => ?_, fun hp ho hw => ?_,
    fun hp ho hl hw => ?_⟩⟩
  · rw [modifyTake_badField p c _ hb]
  · rw [modifyTake_stale p c { s with cmdQueue := rest } hb hf]
  · rw [modifyTake_preempt p c { s with cmdQueue := rest } r hb hf hp]
  · rw [modifyTake_notOwner p c { s with cmdQueue := rest } r ⟨hb, hf, hp⟩ ho hs]
  · rw [modifyTake_wrongState p c { s with cmdQueue := rest } r ⟨hb, hf, hp⟩ ho hw]
  · intro pendingShare n u hps hn hu
    have may : ModifyMay p c { s with cmdQueue := rest } r := ⟨⟨hb, hf, hp⟩, ho, hl, hw⟩
    rw [← newPending_rawChanges] at hps
    have contribution : (changeReservation (rawChanges c) r).contribution = n := by
      rw [contribution_changed, hn, hps]
    have rise := State.changeRuling_rise c { s with cmdQueue := rest } r n contribution
    refine ⟨fun hr hcap => ?_, fun hr hcap hpre hlim => ?_, fun hfit => ?_⟩
    · rw [modifyTake_refused p c _ r may _ ((rise hr).trans (State.ruling_capacity _ _ _ hcap))]
    · rw [modifyTake_refused p c _ r may _ ((rise hr).trans (State.ruling_preemptLimit _ _ _ hcap hpre hlim))]
    · have admitted : State.changeRuling { s with cmdQueue := rest } (rawChanges c) r = none := by
        by_cases hr : r.contribution < n
        · exact (rise hr).trans (State.ruling_none _ _ _ (hfit hr).1 (hfit hr).2)
        · exact State.changeRuling_no_rise c _ r n contribution hr
      have changed : u = (State.replaceContribution { s with cmdQueue := rest } r
          (changeReservation (rawChanges c) r)).setLive (handleField c).slot (changeReservation (rawChanges c) r) := by
        rw [hu, State.replaceContribution, contribution, changeReservation_rawChanges c r hb, hps]
        rfl
      have reaches := State.changeReaches_iff c { s with cmdQueue := rest } r (handleField c)
      rw [modifyTake_admitted p c _ r may admitted, State.applyChanges_eq _ r _ _ u changed]
      refine ⟨fun ht => ?_, fun ht => ?_⟩
      · rw [if_pos (reaches.2 ht)]
      · rw [if_neg (mt reaches.1 ht)]

end Sys2Proof.Machine

namespace Sys2Proof.Machine

/-! # The take of CLEAR_FENCE -/

/-- A slot's record after the clearing of a port's fence (R17). -/
def clearedRecord (q : Port) (x : TableRecord) : TableRecord :=
  match x.live with
  | none => x
  | some r => if r.owner = q ∧ r.causes.fence = true then x.holding (clearFenceReservation r) else x

/-- The handle of a slot whose record the clearing of a port's fence makes ACTIVE (R17). -/
def State.resumedAt (s : State) (q : Port) (k : Slot) : Option Handle :=
  match s.liveAt k with
  | none => none
  | some r =>
    if r.owner = q ∧ r.causes.fence = true ∧ r.causes.command = false then some (s.handleAt k) else none

/-- RESUMED placed for each handle in turn (R189). -/
def resumeAll (n : NoticeSet) (hs : List Handle) : NoticeSet := hs.foldl (fun n h => n.insert .resumed (.handle h)) n

theorem resumeAll_append (n : NoticeSet) (a b : List Handle) : resumeAll n (a ++ b) = resumeAll (resumeAll n a) b :=
  List.foldl_append

/-- The records of some slots cleared, and RESUMED placed for those made ACTIVE. -/
def State.clearedIn (s : State) (q : Port) (l : List Slot) : State :=
  { s with
    table := bankMap (fun k x => if k ∈ l then clearedRecord q x else x) s.table
    notices := bankSet s.notices q (resumeAll (bankGet s.notices q) (l.filterMap (s.resumedAt q))) }

theorem State.clearedIn_frame (s : State) (q : Port) (l : List Slot) :
    s.clearedIn q l = { s with table := (s.clearedIn q l).table, notices := (s.clearedIn q l).notices } := rfl

theorem State.clearedIn_req (s : State) (q : Port) (l : List Slot) : (s.clearedIn q l).req = s.req := by
  rw [State.clearedIn]

theorem State.clearFenceAt_eq (s : State) (q : Port) (k : Slot) (hq : (s.port q).state ≠ .detached) :
    s.clearFenceAt q k =
      { s with
        table := bankSet s.table k (clearedRecord q (s.record k))
        notices := bankSet s.notices q (resumeAll (bankGet s.notices q) (s.resumedAt q k).toList) } := by
  have place (u : State) (h : (u.port q).state ≠ .detached) (x : Subject) :
      u.place q .resumed x = { u with notices := bankSet u.notices q ((bankGet u.notices q).insert .resumed x) } := by
    rw [State.place, if_neg h]; rfl
  have same : s = { s with
      table := bankSet s.table k (s.record k), notices := bankSet s.notices q (bankGet s.notices q) } := by
    rw [bankSet_bankGet, State.record, bankSet_bankGet]
  cases hl : s.liveAt k with
  | none =>
    have hx : (s.record k).live = none := hl
    simp only [State.clearFenceAt, clearedRecord, State.resumedAt, hl, hx]
    exact same
  | some r =>
    have hx : (s.record k).live = some r := hl
    by_cases hr : r.owner = q ∧ r.causes.fence = true
    · cases hc : r.causes.command with
      | true =>
        have kept : s.setLive k (clearFenceReservation r) = { s with
            table := bankSet s.table k ((s.record k).holding (clearFenceReservation r))
            notices := bankSet s.notices q (bankGet s.notices q) } := by rw [bankSet_bankGet]; rfl
        simp only [State.clearFenceAt, clearedRecord, State.resumedAt, hl, hx, hr, hc, and_self, if_true, Bool.true_eq_false,
          and_false, if_false, State.placeIf]
        exact kept
      | false =>
        simp only [State.clearFenceAt, clearedRecord, State.resumedAt, hl, hx, hr, hc, and_self, if_true,
          Bool.false_eq_true, if_false, State.placeIf]
        exact place (s.setLive k (clearFenceReservation r)) hq _
    · have hr' : ¬(r.owner = q ∧ r.causes.fence = true ∧ r.causes.command = false) := fun x => hr ⟨x.1, x.2.1⟩
      simp only [State.clearFenceAt, clearedRecord, State.resumedAt, hl, hx, if_neg hr, if_neg hr']
      exact same

/-- The slots cleared one after another are cleared together. -/
theorem State.clearFenceAt_foldl (q : Port) (l : List Slot) (hl : l.Nodup) (s : State)
    (hq : (s.port q).state ≠ .detached) : l.foldl (fun s k => s.clearFenceAt q k) s = s.clearedIn q l := by
  induction l generalizing s with
  | nil =>
    have e : bankMap (fun k x => if k ∈ ([] : List Slot) then clearedRecord q x else x) s.table = s.table :=
      bank_ext fun k => by simp
    rw [State.clearedIn, e]
    change s = { s with notices := bankSet s.notices q (bankGet s.notices q) }
    rw [bankSet_bankGet]
  | cons k l ih =>
    obtain ⟨hk, hl⟩ := List.nodup_cons.1 hl
    have hs1 := s.clearFenceAt_eq q k hq
    have hq1 : ((s.clearFenceAt q k).port q).state ≠ .detached := by rw [hs1]; exact hq
    rw [List.foldl_cons, ih hl _ hq1, hs1]
    have resumed : l.filterMap (State.resumedAt (s.clearFenceAt q k) q) = l.filterMap (s.resumedAt q) := by
      refine List.filterMap_congr fun j hj => ?_
      have hne : j ≠ k := fun e => hk (e ▸ hj)
      have hrec : (s.clearFenceAt q k).record j = s.record j := by
        rw [hs1]; exact bankGet_bankSet_ne _ hne _
      simp only [State.resumedAt, State.liveAt, State.handleAt, hrec]
    have all : (k :: l).filterMap (s.resumedAt q) = (s.resumedAt q k).toList ++ l.filterMap (s.resumedAt q) := by
      cases h : s.resumedAt q k <;> simp [h]
    have table : bankMap (fun j x => if j ∈ l then clearedRecord q x else x)
        (bankSet s.table k (clearedRecord q (s.record k))) =
        bankMap (fun j x => if j ∈ k :: l then clearedRecord q x else x) s.table := by
      refine bank_ext fun j => ?_
      by_cases hj : j = k
      · subst hj; simp [hk, State.record]
      · simp [hj, bankGet_bankSet_ne]
    rw [hs1] at resumed
    simp only [State.clearedIn, resumed, all, table, bankGet_bankSet_self, bankSet_bankSet, resumeAll_append]

/-- Every slot cleared (R17, R190). -/
theorem State.clearFence_eq (s : State) (q : Port) (hq : (s.port q).state ≠ .detached) :
    s.clearFence q =
      if bankGet s.req q then (s.clearedIn q allSlots).makeEntry q
      else (s.clearedIn q allSlots).setPortState q .idle := by
  simp only [State.clearFence, State.clearFenceAt_foldl q allSlots (List.nodup_finRange 32) s hq, State.clearedIn_req]

theorem State.clearedIn_record (s : State) (q : Port) (k : Slot) :
    (s.clearedIn q allSlots).record k = clearedRecord q (s.record k) := by
  simp [State.clearedIn, State.record, allSlots]

theorem State.clearedIn_notices (s : State) (q : Port) (l : List Slot) (f : Slot → Option Handle)
    (hf : ∀ k, s.resumedAt q k = f k) :
    bankGet (s.clearedIn q l).notices q =
      (l.filterMap f).foldl (fun n h => n.insert .resumed (.handle h)) (bankGet s.notices q) := by
  rw [← funext hf]
  exact bankGet_bankSet_self _ _ _

theorem State.clearedIn_notices_ne (s : State) (q x : Port) (l : List Slot) (hx : x ≠ q) :
    bankGet (s.clearedIn q l).notices x = bankGet s.notices x := bankGet_bankSet_ne _ hx _

theorem clearedRecord_other (q : Port) (x : TableRecord)
    (h : ∀ r, x.live = some r → r.owner ≠ q ∨ r.causes.fence = false) : clearedRecord q x = x := by
  unfold clearedRecord
  split
  · rfl
  · rename_i r hr
    exact if_neg fun y => (h r hr).elim (fun z => z y.1) fun z => by rw [z] at y; cases y.2

theorem clearedRecord_own (q : Port) (x : TableRecord) (r : Reservation) (h : x.live = some r) (ho : r.owner = q)
    (hf : r.causes.fence = true) : clearedRecord q x = x.holding (clearFenceReservation r) := by
  simp [clearedRecord, h, ho, hf]

/-- The yield test leaves the record of a port that is not GRANTED. -/
theorem State.testYield_port (s : State) (p : Port) (h : (s.port p).state ≠ .granted) :
    s.testYield.port p = s.port p := by
  rcases s.testYield_cases with ⟨t, r, -, hm, -, e⟩ | ⟨e, -⟩
  · have hne : p ≠ t.holder := by
      rintro rfl
      simp [State.mayYield, h] at hm
    rw [e, State.assertYield, State.port_setPort, if_neg hne]
    rfl
  · rw [e]

theorem State.makeEntry_port (s : State) (p : Port) : ((s.makeEntry p).port p).state = .waiting := by
  have h : (((s.setWaiting p (some { handle := s.binding p (bankGet s.sel p) })).setPortState p .waiting).port p).state =
      .waiting := by simp [State.port_setPortState]
  rw [State.makeEntry, State.testYield_port _ _ (by rw [h]; decide), h]

theorem clearFenceTake_done (p q : Port) (c : Vector Byte 16) (s : State) (hq : portField c = some q)
    (hf : (s.port q).state = .fenced) :
    clearFenceTake p c s = (s.clearFence q).complete p .done 1 [portStateCode ((s.clearFence q).port q).state] := by
  simp [clearFenceTake, hq, hf]

/-- Settles O49: the state after the clearing of every slot is the one asked for. -/
theorem clearFenceReturnsThePort : Obligations.ClearFenceReturnsThePort := by
  intro s rest c due
  have run : exec .takeClearFence s = .next (clearFenceTake s.supervisor c { s with cmdQueue := rest }) :=
    exec_of_takeSupervisor s rest c _ due clearFenceTake
  refine ⟨fun h => ?_, fun q hq => ?_⟩
  · simp [run, clearFenceTake, portField_none c h]
  have hq := portField_some c q hq
  refine ⟨fun hst => ?_, fun hst => ?_⟩
  · have hst : (State.port { s with cmdQueue := rest } q).state ≠ .fenced := hst
    simp [run, clearFenceTake, hq, hst]
  have hatt : (s.port q).state ≠ .detached := by rw [hst]; decide
  have done := clearFenceTake_done s.supervisor q c { s with cmdQueue := rest } hq hst
  have cleared := State.clearFence_eq { s with cmdQueue := rest } q hatt
  have frame := State.clearedIn_frame { s with cmdQueue := rest } q allSlots
  have record := State.clearedIn_record { s with cmdQueue := rest } q
  have own := State.clearedIn_notices { s with cmdQueue := rest } q allSlots _ fun k => rfl
  have others := fun x => State.clearedIn_notices_ne { s with cmdQueue := rest } q x allSlots
  generalize State.clearedIn { s with cmdQueue := rest } q allSlots = v at cleared frame record own others
  refine ⟨v, frame, fun k h => ?_, fun k r hl ho hf hc => ?_, fun k r hl ho hf hc => ?_, own, others, fun hreq => ?_,
    fun hreq => ?_⟩
  · exact (record k).trans (clearedRecord_other q _ h)
  · have e := (record k).trans (clearedRecord_own q _ r hl ho hf)
    rw [e, clearFenceReservation, if_pos hc]
    rfl
  · have e := (record k).trans (clearedRecord_own q _ r hl ho hf)
    rw [e, clearFenceReservation, if_neg (by simp [hc])]
    rfl
  · have e := cleared.trans (if_pos hreq)
    rw [run, done, e, State.makeEntry_port, frame]
    rfl
  · have e := cleared.trans (if_neg (by simpa using hreq))
    rw [run, done, e, State.port_setPortState, if_pos rfl, frame]
    rfl

end Sys2Proof.Machine

namespace Sys2Proof.Machine

/-! # The limits of the account and SET_FRAME -/

theorem State.limits_of_none (s : State) (h : s.pendingConfig = none) :
    s.commitLimit = commitLimitOf s.config ∧ s.preemptLimit = preemptLimitOf s.config := by
  simp only [State.commitLimit, State.preemptLimit, h, and_self]

theorem State.limits_of_pending (s : State) (f : FrameConfig) (h : s.pendingConfig = some f) :
    s.commitLimit = min (commitLimitOf s.config) (commitLimitOf f) ∧
      s.preemptLimit = min (preemptLimitOf s.config) (preemptLimitOf f) := by
  simp only [State.commitLimit, State.preemptLimit, h, and_self]

/-- Settles O36: the limits with and without a pending configuration. -/
theorem limitsAreTheStricterOfBothConfigurations : Obligations.LimitsAreTheStricterOfBothConfigurations :=
  fun s => ⟨s.limits_of_none, s.limits_of_pending⟩

theorem frameInRange_iff (f : FrameConfig) : frameInRange f = true ↔
    (256 ≤ f.capacity ∧ f.capacity ≤ 65535) ∧ (16 ≤ f.reserve ∧ f.reserve ≤ f.capacity / 2) ∧
      (16 ≤ f.frameTicks ∧ f.frameTicks ≤ 65535) ∧ (1 ≤ f.grace ∧ f.grace ≤ 255) ∧ (1 ≤ f.idle ∧ f.idle ≤ 255) ∧
      1 ≤ f.spare ∧ f.spare ≤ 1023 := by
  simp only [frameInRange, Bool.and_eq_true, decide_eq_true_eq, and_assoc]

/-- The ranges of R46 on the fields of a SET_FRAME, whose two bytes hold no more than 65535 (R197). -/
theorem frameInRange_frameFields (c : Vector Byte 16) (f : FrameConfig) (hf : f = frameFields c) :
    frameInRange f = true ↔
      256 ≤ f.capacity ∧ 16 ≤ f.reserve ∧ f.reserve ≤ f.capacity / 2 ∧ 16 ≤ f.frameTicks ∧
        1 ≤ f.grace ∧ f.grace ≤ 255 ∧ 1 ≤ f.idle ∧ f.idle ≤ 255 ∧ 1 ≤ f.spare ∧ f.spare ≤ 1023 := by
  have capacity : f.capacity < 65536 := hf ▸ field16_lt c 0x01
  have ticks : f.frameTicks < 65536 := hf ▸ field16_lt c 0x05
  rw [frameInRange_iff]
  omega

section
variable (s : State) (f : FrameConfig)

theorem State.frameRuling_capacity (h : commitLimitOf f < s.committed) : s.frameRuling f = some .capacity :=
  if_pos h

theorem State.frameRuling_preemptLimit (h : s.committed ≤ commitLimitOf f) (h' : preemptLimitOf f < s.preemptTotal) :
    s.frameRuling f = some .preemptLimit := by
  rw [State.frameRuling, if_neg (Nat.not_lt.2 h), if_pos h']

theorem State.frameRuling_eq_none : s.frameRuling f = none ↔ s.totalsFit f := by
  unfold State.frameRuling State.totalsFit
  split
  · rename_i h; simp [h]
  · rename_i h
    split
    · rename_i h'; simp [h']
    · rename_i h'; simp [Nat.not_lt.1 h, Nat.not_lt.1 h']

end

section
variable (p : Port) (c : Vector Byte 16) (s : State)

theorem setFrameTake_badField (h : ¬frameInRange (frameFields c) = true) : setFrameTake p c s = s.refuse p .badField := by
  simp only [setFrameTake, h, if_true]

theorem setFrameTake_refused (h : frameInRange (frameFields c) = true) (x : ReplyStatus)
    (hx : s.frameRuling (frameFields c) = some x) : setFrameTake p c s = s.refuse p x := by
  simp only [setFrameTake, h, Bool.true_eq_false, if_false, hx]

theorem setFrameTake_done (h : frameInRange (frameFields c) = true) (hx : s.totalsFit (frameFields c)) :
    setFrameTake p c s =
      State.complete { s with pendingConfig := some (frameFields c) } p .done 1 (twoBytes s.frameNumber.toNat) := by
  simp only [setFrameTake, h, Bool.true_eq_false, if_false, (s.frameRuling_eq_none _).2 hx]

end

/-- Settles O50: the ranges, then the two limits of the new values, then the pending configuration. -/
theorem setFrameBecomesPending : Obligations.SetFrameBecomesPending := by
  rintro s rest c due _ inRange rfl hrange
  have range : inRange ↔ frameInRange (frameFields c) = true := hrange.trans (frameInRange_frameFields c _ rfl).symm
  have run : exec .takeSetFrame s = .next (setFrameTake s.supervisor c { s with cmdQueue := rest }) :=
    exec_of_takeSupervisor s rest c _ due setFrameTake
  rw [run, range]
  refine ⟨fun h => ?_, fun h hcap => ?_, fun h hcap hpre => ?_, fun h hcap hpre => ?_⟩
  · rw [setFrameTake_badField _ c _ h]
  · rw [setFrameTake_refused _ c { s with cmdQueue := rest } h _ (State.frameRuling_capacity _ _ hcap)]
  · rw [setFrameTake_refused _ c { s with cmdQueue := rest } h _ (State.frameRuling_preemptLimit _ _ hcap hpre)]
  · rw [setFrameTake_done _ c { s with cmdQueue := rest } h ⟨hcap, hpre⟩]
    rfl

end Sys2Proof.Machine

namespace Sys2Proof.Machine

/-! # The capacity account

What the laws of R31 and R33 read of a state is its `State.account`: what each slot holds of the two totals, the totals
and the two configurations. Most events leave it; the others are `Account.replace`, `Account.pend` and
`Account.advance`, or a return to reset. The pair `(a, b)` is an amount of the committed and of the preempt total. -/

/-- What a live record holds of the committed and the preempt total (R31). -/
def Reservation.claim (r : Reservation) : Nat × Nat := (r.contribution, preemptPart r r.contribution)

/-- What a slot holds of the totals: nothing while it is FREE. -/
def claimOf (x : Option Reservation) : Nat × Nat := x.elim 0 Reservation.claim

/-- C - M and floor(C/8) of a configuration (R32). -/
def limitsOf (f : FrameConfig) : Nat × Nat := (commitLimitOf f, preemptLimitOf f)

/-- What the laws of the capacity account read. -/
@[ext] structure Account where
  claims : Slot → Nat × Nat
  totals : Nat × Nat
  config : FrameConfig
  pendingConfig : Option FrameConfig

/-- The account of a state. -/
def State.account (s : State) : Account where
  claims k := claimOf (s.liveAt k)
  totals := (s.committed, s.preemptTotal)
  config := s.config
  pendingConfig := s.pendingConfig

namespace Account

/-- A configuration whose limits hold: the one in force or a pending one (R32). -/
def governs (a : Account) (f : FrameConfig) : Prop := f = a.config ∨ a.pendingConfig = some f

/-- The totals are the sums of the claims and within the limits that hold (R31, R33). -/
structure balanced (a : Account) : Prop where
  sum : a.totals = ∑ k, a.claims k
  within : ∀ f, a.governs f → a.totals ≤ limitsOf f

/-- The claim of a slot replaced in the totals (R35, R36, R40, R41). -/
def replace (a : Account) (k : Slot) (c : Nat × Nat) : Account :=
  { a with claims := Function.update a.claims k c, totals := a.totals + c - a.claims k }

/-- A configuration made the pending one (R38). -/
def pend (a : Account) (f : FrameConfig) : Account := { a with pendingConfig := some f }

/-- A pending configuration put in force (R39). -/
def advance (a : Account) : Account := { a with config := a.pendingConfig.getD a.config, pendingConfig := none }

/-- A claim replaced keeps the sums exact, whatever the new claim. -/
theorem sum_replace (a : Account) (h : a.totals = ∑ k, a.claims k) (k : Slot) (c : Nat × Nat) :
    (a.replace k c).totals = ∑ j, (a.replace k c).claims j := by
  have old : a.claims k + ∑ j ∈ Finset.univ.erase k, a.claims j = ∑ j, a.claims j :=
    Finset.add_sum_erase _ _ (Finset.mem_univ k)
  have new : ∑ j, Function.update a.claims k c j = c + ∑ j ∈ Finset.univ.erase k, a.claims j := by
    rw [Finset.sum_update_of_mem (Finset.mem_univ k), Finset.sdiff_singleton_eq_erase]
  change a.totals + c - a.claims k = ∑ j, Function.update a.claims k c j
  rw [new, h, ← old, add_assoc, add_tsub_cancel_left, add_comm]

/-- A slot that keeps its claim leaves the account. -/
theorem replace_self (a : Account) (k : Slot) : a.replace k (a.claims k) = a := by
  rw [replace, Function.update_eq_self, add_tsub_cancel_right]

theorem balanced.replace {a : Account} (h : a.balanced) (k : Slot) (c : Nat × Nat)
    (hfit : ∀ f, a.governs f → a.totals + c - a.claims k ≤ limitsOf f) : (a.replace k c).balanced :=
  ⟨a.sum_replace h.sum k c, hfit⟩

/-- A claim that does not rise needs no ruling (R36, R41). -/
theorem balanced.lower {a : Account} (h : a.balanced) (k : Slot) (c : Nat × Nat) (hc : c ≤ a.claims k) :
    (a.replace k c).balanced :=
  h.replace k c fun f hf => (tsub_le_iff_right.2 (add_le_add_right hc a.totals)).trans (h.within f hf)

theorem balanced.pend {a : Account} (h : a.balanced) (f : FrameConfig) (hf : a.totals ≤ limitsOf f) :
    (a.pend f).balanced := by
  refine ⟨h.sum, ?_⟩
  rintro g (hg | hg)
  · exact h.within g (Or.inl hg)
  · cases hg; exact hf

theorem balanced.advance {a : Account} (h : a.balanced) : a.advance.balanced := by
  refine ⟨h.sum, ?_⟩
  rintro g (rfl | hg)
  · refine h.within _ ?_
    cases hp : a.pendingConfig with
    | none => exact Or.inl (by simp [Account.advance, hp])
    | some f => exact Or.inr (by simp [Account.advance, hp])
  · cases hg

end Account

/-- The sum of a measure over the live records as a sum over the slots. -/
theorem State.liveSum_eq (s : State) (m : Reservation → Nat) : s.liveSum m = ∑ k, (s.liveAt k).elim 0 m := by
  rw [State.liveSum, Fin.sum_univ_def]
  refine congrArg List.sum (List.map_congr_left fun k _ => ?_)
  cases s.liveAt k <;> rfl

/-- The state's account is balanced. -/
def State.balanced (s : State) : Prop := s.account.balanced

theorem State.balanced_iff (s : State) : s.balanced ↔ s.accountExact ∧ s.limitsKept := by
  have committed : (∑ k, s.account.claims k).1 = s.liveSum Reservation.contribution := by
    rw [s.liveSum_eq, Prod.fst_sum]
    refine Finset.sum_congr rfl fun k _ => ?_
    simp only [State.account, claimOf]
    cases s.liveAt k <;> rfl
  have preempt : (∑ k, s.account.claims k).2 = s.liveSum fun r => preemptPart r r.contribution := by
    rw [s.liveSum_eq, Prod.snd_sum]
    refine Finset.sum_congr rfl fun k _ => ?_
    simp only [State.account, claimOf]
    cases s.liveAt k <;> rfl
  constructor
  · rintro ⟨hsum, hwithin⟩
    refine ⟨⟨?_, ?_⟩, hwithin _ (Or.inl rfl), fun f hf => hwithin f (Or.inr hf)⟩
    · rw [← committed, ← hsum]; rfl
    · rw [← preempt, ← hsum]; rfl
  · rintro ⟨⟨hc, hp⟩, hin, hpend⟩
    refine ⟨Prod.ext (hc.trans committed.symm) (hp.trans preempt.symm), ?_⟩
    rintro f (rfl | hf)
    · exact hin
    · exact hpend f hf

/-- An event that leaves the account keeps it balanced. -/
theorem State.balanced.of_eq {s t : State} (h : s.balanced) (e : t.account = s.account) : t.balanced := by
  unfold State.balanced; rwa [e]

/-! ## The account after the shared operations -/

@[simp] theorem State.account_testYield (s : State) : s.testYield.account = s.account := by
  obtain ⟨_, _, e⟩ := s.testYield_frame; rw [e]; rfl

@[simp] theorem State.account_raiseYield (s : State) (r : YieldReason) : (s.raiseYield r).account = s.account := by
  obtain ⟨_, _, e⟩ := s.raiseYield_frame r; rw [e]; rfl

@[simp] theorem State.account_withdrawDrawing (s : State) (h : Handle) (cls : ResClass) :
    (s.withdrawDrawing h cls).account = s.account := by
  obtain ⟨_, _, e⟩ := s.withdrawDrawing_frame h cls; rw [e]; rfl

@[simp] theorem State.account_refillStanding (s : State) (h : Handle) (cls : ResClass) :
    (s.refillStanding h cls).account = s.account := by
  obtain ⟨_, e⟩ := s.refillStanding_frame h cls; rw [e]; rfl

@[simp] theorem State.account_setPort (s : State) (p : Port) (r : PortRecord) : (s.setPort p r).account = s.account := rfl

@[simp] theorem State.account_setPortState (s : State) (p : Port) (x : PortState) :
    (s.setPortState p x).account = s.account := rfl

@[simp] theorem State.account_setTenure (s : State) (t : Option Tenure) : (s.setTenure t).account = s.account := rfl

@[simp] theorem State.account_setBinding (s : State) (p : Port) (c : SelCode) (h : Option Handle) :
    (s.setBinding p c h).account = s.account := rfl

@[simp] theorem State.account_setWalk (s : State) (w : Option Walk) :
    State.account { s with walk := w } = s.account := rfl

@[simp] theorem State.account_endTenure (s : State) (p : Port) (x : PortState) :
    (s.endTenure p x).account = s.account := rfl

@[simp] theorem State.account_place (s : State) (p : Port) (k : NoticeKind) (x : Subject) :
    (s.place p k x).account = s.account := by
  obtain ⟨_, e⟩ := s.place_frame p k x; rw [e]; rfl

@[simp] theorem State.account_placeIf (s : State) (p : Port) (k : Option NoticeKind) (x : Subject) :
    (s.placeIf p k x).account = s.account := by
  obtain ⟨_, e⟩ := s.placeIf_frame p k x; rw [e]; rfl

@[simp] theorem State.account_placeTableReset (s : State) : s.placeTableReset.account = s.account := by
  obtain ⟨_, e⟩ := s.placeTableReset_frame; rw [e]; rfl

@[simp] theorem State.account_complete (s : State) (p : Port) (x : ReplyStatus) (n : Nat) (bs : List Byte) :
    (s.complete p x n bs).account = s.account := by
  obtain ⟨_, e⟩ := s.complete_frame p x n bs; rw [e]; rfl

@[simp] theorem State.account_refuse (s : State) (p : Port) (x : ReplyStatus) : (s.refuse p x).account = s.account :=
  s.account_complete p x 0 []

@[simp] theorem State.account_makeEntry (s : State) (p : Port) : (s.makeEntry p).account = s.account := by
  obtain ⟨_, _, e⟩ := s.makeEntry_frame p; rw [e]; rfl

@[simp] theorem State.account_requestFalls (s : State) (p : Port) : (s.requestFalls p).account = s.account := by
  obtain ⟨_, _, _, _, e⟩ := s.requestFalls_frame p; rw [e]; rfl

@[simp] theorem State.account_finishDrain (s : State) : s.finishDrain.account = s.account := by
  obtain ⟨_, _, _, e⟩ := s.finishDrain_frame; rw [e]; rfl

@[simp] theorem State.account_windowEffect (s : State) (x : Option WindowAccess) (d : Byte) :
    (s.windowEffect x d).account = s.account := by
  obtain ⟨_, _, _, _, _, _, _, _, e⟩ := s.windowEffect_frame x d; rw [e]; rfl

/-! ## The account after a write of a record -/

/-- The account where one slot's claim alone has changed, with the totals. -/
theorem State.account_eq_replace (s t : State) (k : Slot) (c : Nat × Nat)
    (hlive : ∀ j, claimOf (t.liveAt j) = if j = k then c else claimOf (s.liveAt j))
    (htotals : t.account.totals = s.account.totals + c - claimOf (s.liveAt k)) (hconfig : t.config = s.config)
    (hpending : t.pendingConfig = s.pendingConfig) : t.account = s.account.replace k c := by
  refine Account.ext (funext fun j => (hlive j).trans ?_) htotals hconfig hpending
  by_cases hj : j = k
  · subst hj; simp [Account.replace]
  · simp [Account.replace, State.account, hj]

/-- The claims after a record is written. -/
theorem State.claimOf_setLive (s : State) (k j : Slot) (r : Reservation) :
    claimOf ((s.setLive k r).liveAt j) = if j = k then r.claim else claimOf (s.liveAt j) := by
  rw [State.liveAt_setLive]
  exact apply_ite claimOf _ _ _

/-- A record changed but in its claim leaves the account. -/
theorem State.account_setLive (s : State) (k : Slot) (r r' : Reservation) (h : s.liveAt k = some r)
    (hc : r'.claim = r.claim) : (s.setLive k r').account = s.account := by
  have live : s.account.claims k = r'.claim := (congrArg claimOf h).trans hc.symm
  have e := s.account_eq_replace (s.setLive k r') k r'.claim (fun j => s.claimOf_setLive k j r')
    (by rw [h]; exact hc ▸ (add_tsub_cancel_right _ _).symm) rfl rfl
  rw [e, ← live, Account.replace_self]

/-- A record written with its contribution replaced in the totals (R36, R40). -/
theorem State.account_replaceContribution (s : State) (k : Slot) (r r1 v : Reservation) (h : s.liveAt k = some r)
    (hv : v.claim = r1.claim) : ((s.replaceContribution r r1).setLive k v).account = s.account.replace k r1.claim :=
  s.account_eq_replace _ k r1.claim (fun j => by rw [State.claimOf_setLive, hv]; rfl) (by rw [h]; rfl) rfl rfl

/-- A retirement releases the record's contribution (R41). -/
theorem State.account_retireRecord (s : State) (k : Slot) : (s.retireRecord k).account = s.account.replace k 0 := by
  cases h : s.liveAt k with
  | none =>
    have free : s.account.claims k = 0 := congrArg claimOf h
    rw [s.retireRecord_free k h, ← free, Account.replace_self]
  | some r =>
    rw [s.retireRecord_of_live k r h, State.account_withdrawDrawing]
    refine s.account_eq_replace _ k 0 (fun j => ?_) (by rw [h, add_zero]; rfl) rfl rfl
    refine (congrArg claimOf (s.liveAt_setRecord k j _)).trans ?_
    exact apply_ite claimOf _ _ _

/-- Records changed but in their claims leave the account. -/
theorem State.account_setTable (s : State) (v : Vector TableRecord 32)
    (h : ∀ k, claimOf (bankGet v k).live = claimOf (s.liveAt k)) : State.account { s with table := v } = s.account :=
  Account.ext (funext h) rfl rfl rfl

theorem claim_fenced (p : Port) (r : Reservation) : (fenceReservation p r).claim = r.claim := by
  unfold fenceReservation
  split
  · split <;> rfl
  · rfl

theorem State.account_fenceRecords (s : State) (p : Port) :
    State.account { s with table := bankMap (fun _ => fenceRecord p) s.table } = s.account := by
  refine s.account_setTable _ fun k => ?_
  rw [bankGet_bankMap]
  change claimOf ((s.liveAt k).map (fenceReservation p)) = claimOf (s.liveAt k)
  cases s.liveAt k with
  | none => rfl
  | some r => exact claim_fenced p r

@[simp] theorem State.account_fencePort (s : State) (p : Port) : (s.fencePort p).account = s.account := by
  simp only [State.fencePort, State.account_place]
  exact (State.account_fenceRecords _ p).trans rfl

@[simp] theorem State.account_expireGrace (s : State) (p : Port) : (s.expireGrace p).account = s.account := by
  unfold State.expireGrace
  split
  · simp [State.forceWithdrawal]
  · exact s.account_fencePort p

@[simp] theorem State.account_expireDrain (s : State) (p : Port) : (s.expireDrain p).account = s.account := rfl

@[simp] theorem State.account_idleTick (s : State) : s.idleTick.account = s.account := by
  unfold State.idleTick
  split
  · rfl
  · split <;> simp

@[simp] theorem State.account_tenureTick (s : State) : s.tenureTick.account = s.account := by
  unfold State.tenureTick
  split
  · simp
  · simp
  · rfl
  · split <;> simp

/-- A charge spends credit, which is no part of a claim (R21, R102). -/
@[simp] theorem State.account_chargeRecord (s : State) (h : Handle) (cost : Nat) :
    (s.chargeRecord h cost).account = s.account := by
  unfold State.chargeRecord
  split
  · rfl
  · rename_i r hf
    have spent := s.account_setLive h.slot r { r with credit := r.credit - cost } (s.liveAt_of_fresh h r hf).2 rfl
    dsimp only
    split
    · split <;> simp [spent]
    · exact spent

@[simp] theorem State.account_charge (s : State) (cost : Nat) : (s.charge cost).account = s.account := by
  unfold State.charge
  split
  · rfl
  · dsimp only
    split <;> simp

@[simp] theorem State.account_readyEvent (s : State) (d : Byte) : (s.readyEvent d).account = s.account := by
  unfold State.readyEvent
  split
  · rfl
  · split
    · rfl
    · rfl
    · rename_i c rest _
      split
      · rfl
      · dsimp only
        rw [State.account_finishDrain, State.account_charge]
        exact s.account_windowEffect c.access d

@[simp] theorem State.account_readyOf (s : State) (is : WindowAccess → Bool) (d : Byte) :
    (s.readyOf is d).account = s.account := by
  unfold State.readyOf
  split
  · split <;> simp
  · simp

/-! ## Visits, boundaries and detaches keep the account balanced -/

theorem claim_le_of_contribution_le (r r' : Reservation) (hp : r'.preempt = r.preempt)
    (hc : r'.contribution ≤ r.contribution) : r'.claim ≤ r.claim := by
  refine Prod.mk_le_mk.2 ⟨hc, ?_⟩
  unfold preemptPart
  rw [hp]
  split
  · exact hc
  · exact le_rfl

/-- A pending share put in force is one of the two shares the record was held for (R31, R40, R59). -/
theorem claim_applyPending_le (r : Reservation) : (applyPending r).claim ≤ r.claim := by
  cases h : r.pendingShare with
  | none => simp only [applyPending, h, le_refl]
  | some n =>
    refine claim_le_of_contribution_le r _ ?_ ?_ <;> simp only [applyPending, h]
    simp [Reservation.contribution, h]

theorem claim_countLease (r : Reservation) : (countLease r).1.claim = r.claim := by
  unfold countLease
  split
  · rfl
  · split
    · rfl
    · split <;> rfl

theorem State.balanced.retireRecord {s : State} (h : s.balanced) (k : Slot) : (s.retireRecord k).balanced := by
  unfold State.balanced
  rw [s.account_retireRecord k]
  exact Account.balanced.lower h k 0 (Prod.mk_le_mk.2 ⟨Nat.zero_le _, Nat.zero_le _⟩)

theorem State.balanced.retire {s : State} (h : s.balanced) (k : Slot) : (s.retire k).balanced :=
  (h.retireRecord k).of_eq (State.account_testYield _)

/-- A contribution replaced by one that is no greater (R36, R40). -/
theorem State.balanced.replaceContribution {s : State} (h : s.balanced) (k : Slot) (r r1 v : Reservation)
    (hl : s.liveAt k = some r) (hv : v.claim = r1.claim) (hle : r1.claim ≤ r.claim) :
    ((s.replaceContribution r r1).setLive k v).balanced := by
  have live : s.account.claims k = r.claim := congrArg claimOf hl
  unfold State.balanced
  rw [s.account_replaceContribution k r r1 v hl hv]
  exact Account.balanced.lower h k r1.claim (live ▸ hle)

theorem State.balanced.visitActive {s : State} (h : s.balanced) (k : Slot) (r : Reservation) (hl : s.liveAt k = some r) :
    (s.visitActive k r).balanced := by
  simp only [State.visitActive]
  set r0 := if s.shortfallMet (s.handleAt k) r = true then { r with shortfall := min 255 (r.shortfall + 1) } else r
    with hr0
  have short : r0.claim = r.claim := by rw [hr0]; split <;> rfl
  have refilled := h.replaceContribution k r (applyPending r0)
    (countLease { applyPending r0 with credit := (applyPending r0).share }).1 hl (claim_countLease _)
    (short ▸ claim_applyPending_le r0)
  refine refilled.of_eq ?_
  rw [State.account_testYield]
  split <;> simp

theorem State.balanced.visitSuspended {s : State} (h : s.balanced) (k : Slot) (r : Reservation)
    (hl : s.liveAt k = some r) : (s.visitSuspended k r).balanced :=
  (h.replaceContribution k r (applyPending r) { applyPending r with credit := 0 } hl rfl (claim_applyPending_le r)).of_eq
    (State.account_testYield _)

theorem State.balanced.visitLapsed {s : State} (h : s.balanced) (k : Slot) (r : Reservation) :
    (s.visitLapsed k r).balanced := (h.retireRecord k).of_eq (by simp [State.visitLapsed])

theorem State.balanced.sweepStep {s : State} (h : s.balanced) : s.sweepStep.balanced := by
  unfold State.sweepStep
  split
  · exact h
  · rename_i k _
    have visited : (s.visitSlot k).balanced := by
      unfold State.visitSlot
      split
      · exact h
      · rename_i r hl
        split
        · exact h.visitActive k r hl
        · exact h.visitSuspended k r hl
        · exact h.visitLapsed k r
    exact visited.of_eq rfl

theorem State.balanced.walkStep {s : State} (h : s.balanced) : s.walkStep.balanced := by
  unfold State.walkStep
  split
  · exact h
  · rename_i w _
    split
    · simp only [State.listStep]
      split
      · exact h.of_eq (s.account_setWalk _)
      · exact h.of_eq (by rw [State.account_complete, State.account_setWalk])
    · simp only [State.resetTableStep]
      refine (h.retire w.next).of_eq ?_
      split
      · simp only [State.account_setWalk]
      · split <;> simp only [State.account_complete, State.account_setWalk, State.account_placeTableReset]

theorem State.balanced.boundaryEvent {s : State} (h : s.balanced) : s.boundaryEvent.balanced :=
  Account.balanced.advance h

theorem State.balanced.frameTick {s : State} (h : s.balanced) : s.frameTick.balanced := by
  unfold State.frameTick
  split
  · exact h.boundaryEvent
  · exact h.of_eq rfl

theorem State.balanced.retireOwned {s : State} (h : s.balanced) (p : Port) : (s.retireOwned p).balanced := by
  unfold State.retireOwned
  generalize allSlots = l
  induction l generalizing s with
  | nil => exact h
  | cons k l ih =>
    rw [List.foldl_cons]
    split
    · exact ih (h.retireRecord k)
    · exact ih h

@[simp] theorem State.account_unbindAll (s : State) (p : Port) : (s.unbindAll p).account = s.account := rfl

@[simp] theorem State.account_detachCommands (s : State) (p : Port) : (s.detachCommands p).account = s.account := rfl

@[simp] theorem State.account_detachTenure (s : State) (p : Port) : (s.detachTenure p).account = s.account := by
  unfold State.detachTenure
  split
  · rfl
  · split <;> rfl

@[simp] theorem State.account_detachNotices (s : State) (p : Port) : (s.detachNotices p).account = s.account := by
  simp only [State.detachNotices]
  split
  · rfl
  · exact State.account_place _ _ _ _

theorem State.balanced.detachPort {s : State} (h : s.balanced) (p : Port) : (s.detachPort p).balanced := by
  have departed : (((s.detachTenure p).setWaiting p none).setPortState p .detached).balanced :=
    h.of_eq (s.account_detachTenure p)
  exact (departed.retireOwned p).of_eq (by simp [State.detachPort])

theorem State.powerOn_balanced (s : State) : s.powerOn.balanced :=
  ((State.balanced_iff State.reset).2 reset_account).of_eq rfl

end Sys2Proof.Machine

namespace Sys2Proof.Machine

/-! ## Takes keep the account balanced -/

/-- The limits of a ruling are within those of each configuration that governs (R32). -/
theorem State.limits_le (s : State) (f : FrameConfig) (hf : s.account.governs f) :
    s.commitLimit ≤ commitLimitOf f ∧ s.preemptLimit ≤ preemptLimitOf f := by
  cases hp : s.pendingConfig with
  | none =>
    obtain ⟨hc, hpre⟩ := s.limits_of_none hp
    rw [hc, hpre]
    rcases hf with rfl | hf
    · exact ⟨le_rfl, le_rfl⟩
    · cases hp.symm.trans hf
  | some g =>
    obtain ⟨hc, hpre⟩ := s.limits_of_pending g hp
    rw [hc, hpre]
    rcases hf with rfl | hf
    · exact ⟨Nat.min_le_left _ _, Nat.min_le_left _ _⟩
    · cases hp.symm.trans hf
      exact ⟨Nat.min_le_right _ _, Nat.min_le_right _ _⟩

/-- What a ruling of no refusal says (R34, R35, R36). -/
theorem State.ruling_eq_none (s : State) (raise : Nat) (preempt : Bool) (h : s.ruling raise preempt = none) :
    s.committed + raise ≤ s.commitLimit ∧ (preempt = true → s.preemptTotal + raise ≤ s.preemptLimit) := by
  have hc : s.committed + raise ≤ s.commitLimit := by
    by_contra hn
    rw [s.ruling_capacity raise preempt (Nat.not_le.1 hn)] at h
    cases h
  refine ⟨hc, fun hp => ?_⟩
  by_contra hn
  rw [s.ruling_preemptLimit raise preempt hc hp (Nat.not_le.1 hn)] at h
  cases h

/-- A raise of the committed total, and with preempt yes of the preempt total (R31). -/
def raiseOf (n : Nat) (preempt : Bool) : Nat × Nat := (n, if preempt then n else 0)

/-- A raise that is not refused fits every configuration that governs (R33, R35). -/
theorem State.balanced.fits_raise {s : State} (h : s.balanced) (raise : Nat) (preempt : Bool)
    (hr : s.ruling raise preempt = none) (f : FrameConfig) (hf : s.account.governs f) :
    s.account.totals + raiseOf raise preempt ≤ limitsOf f := by
  obtain ⟨hc, hp⟩ := s.ruling_eq_none raise preempt hr
  obtain ⟨lc, lp⟩ := s.limits_le f hf
  refine Prod.mk_le_mk.2 ⟨hc.trans lc, ?_⟩
  cases preempt with
  | true => exact (hp rfl).trans lp
  | false => exact (Account.balanced.within h f hf).2

/-- A claim of a greater contribution is the old one and the raise. -/
theorem claim_eq_add_raise (r r' : Reservation) (hp : r'.preempt = r.preempt)
    (hc : r.contribution ≤ r'.contribution) :
    r'.claim = r.claim + raiseOf (r'.contribution - r.contribution) r.preempt := by
  have rise : r'.contribution = r.contribution + (r'.contribution - r.contribution) := (Nat.add_sub_cancel' hc).symm
  refine Prod.ext rise ?_
  simp only [Reservation.claim, preemptPart, hp, raiseOf, Prod.snd_add]
  cases r.preempt with
  | true => exact rise
  | false => rfl

theorem State.openingSlot_ruling (s : State) (owner : Port) (t : OpenTerms) (k : Slot) (h : s.openingSlot owner t = .ok k) :
    s.ruling t.share t.preempt = none := by
  unfold State.openingSlot at h
  split at h
  · cases h
  · split at h
    · cases h
    · split at h
      · cases h
      · assumption

theorem claim_opened (owner : Port) (t : OpenTerms) (fenced : Bool) :
    (openedReservation owner t fenced).claim = raiseOf t.share t.preempt := by
  simp [Reservation.claim, Reservation.contribution, openedReservation, raiseOf, preemptPart]

/-- An admitted opening raises the totals by its share, as ruled (R12, R35). -/
theorem State.balanced.admitOpening {s : State} (h : s.balanced) (k : Slot) (owner : Port) (t : OpenTerms)
    (hk : s.openingSlot owner t = .ok k) : (s.admitOpening k owner t).1.balanced := by
  have hfree := (s.openingSlot_ok owner t k hk).1
  have free : s.account.claims k = 0 := congrArg claimOf hfree
  have opened : (s.newReservation owner t).claim = raiseOf t.share t.preempt := claim_opened owner t _
  have e : (s.admitOpening k owner t).1.account = s.account.replace k (raiseOf t.share t.preempt) := by
    refine s.account_eq_replace _ k _ (fun j => ?_) ?_ rfl rfl
    · rw [← opened]; exact s.claimOf_setLive k j _
    · rw [hfree]; rfl
  unfold State.balanced
  rw [e]
  refine Account.balanced.replace h k _ fun f hf => ?_
  rw [free, tsub_zero]
  exact h.fits_raise _ _ (s.openingSlot_ruling owner t k hk) f hf

/-- An accepted MODIFY replaces the contribution; a raise is ruled on (R36). -/
theorem State.balanced.applyChanges {s : State} (h : s.balanced) (c : Vector Byte 16) (g : Handle) (r : Reservation)
    (hf : s.fresh g = some r) (hr : s.changeRuling (rawChanges c) r = none) :
    (s.applyChanges (rawChanges c) g r).balanced := by
  obtain ⟨-, hl⟩ := s.liveAt_of_fresh g r hf
  have live : s.account.claims g.slot = r.claim := congrArg claimOf hl
  have rise := s.changeRuling_rise c r _ rfl
  set r1 := changeReservation (rawChanges c) r
  have e : (s.applyChanges (rawChanges c) g r).account = s.account.replace g.slot r1.claim := by
    rw [State.applyChanges_eq s r _ g _ rfl, ← s.account_replaceContribution g.slot r r1 r1 hl rfl]
    split
    · exact State.account_testYield _
    · rfl
  unfold State.balanced
  rw [e]
  by_cases hlt : r.contribution < r1.contribution
  · refine Account.balanced.replace h g.slot r1.claim fun f hf => ?_
    rw [live, claim_eq_add_raise r r1 rfl hlt.le, add_left_comm, add_tsub_cancel_left]
    exact h.fits_raise _ _ ((rise hlt).symm.trans hr) f hf
  · exact Account.balanced.lower h g.slot r1.claim (live ▸ claim_le_of_contribution_le r r1 rfl (Nat.not_lt.1 hlt))

/-- A take's body keeps the account balanced. -/
def TakeBalanced (body : Port → Vector Byte 16 → State → State) : Prop :=
  ∀ p c (s : State), s.balanced → (body p c s).balanced

theorem State.balanced.refuse {s : State} (h : s.balanced) (p : Port) (x : ReplyStatus) : (s.refuse p x).balanced :=
  h.of_eq (s.account_refuse p x)

theorem State.balanced.complete {s : State} (h : s.balanced) (p : Port) (x : ReplyStatus) (n : Nat) (bs : List Byte) :
    (s.complete p x n bs).balanced := h.of_eq (s.account_complete p x n bs)

/-- A fresh record changed but in its claim. -/
theorem State.balanced.setLive {s : State} (h : s.balanced) (g : Handle) (r r' : Reservation) (hf : s.fresh g = some r)
    (hc : r'.claim = r.claim) : (s.setLive g.slot r').balanced :=
  h.of_eq (s.account_setLive g.slot r r' (s.liveAt_of_fresh g r hf).2 hc)

theorem openTake_balanced : TakeBalanced openTake := by
  intro p c s h
  unfold openTake
  split
  · exact h.refuse _ _
  · split
    · exact h.refuse _ _
    · rename_i t _ _ k hk
      exact (h.admitOpening k p t hk).complete _ _ _ _

theorem openForTake_balanced : TakeBalanced openForTake := by
  intro p c s h
  unfold openForTake
  split
  · rename_i owner t _ _
    split
    · exact h.refuse _ _
    · split
      · exact h.refuse _ _
      · rename_i k hk
        exact ((h.admitOpening k owner t hk).of_eq (State.account_place _ _ _ _)).complete _ _ _ _
  · exact h.refuse _ _

theorem modifyTake_balanced : TakeBalanced modifyTake := by
  intro p c s h
  simp only [modifyTake]
  split
  · exact h.refuse _ _
  · split
    · exact h.refuse _ _
    · rename_i r hf
      split
      · exact h.refuse _ _
      · split
        · exact h.refuse _ _
        · split
          · exact h.refuse _ _
          · split
            · exact h.refuse _ _
            · rename_i hr
              exact (h.applyChanges c _ r hf hr).complete _ _ _ _

theorem claim_renewed (fenced : Bool) (r : Reservation) : (renewReservation fenced r).claim = r.claim := by
  unfold renewReservation
  split
  · rfl
  · split
    · rfl
    · rfl
    · split <;> rfl

theorem renewTake_balanced : TakeBalanced renewTake := by
  intro p c s h
  simp only [renewTake]
  split
  · exact h.refuse _ _
  · rename_i r hf
    split
    · exact h.refuse _ _
    · exact (h.setLive _ r _ hf (claim_renewed _ r)).complete _ _ _ _

theorem closeTake_balanced : TakeBalanced closeTake := by
  intro p c s h
  simp only [closeTake]
  split
  · exact h.refuse _ _
  · split
    · exact h.refuse _ _
    · exact (h.retire _).complete _ _ _ _

theorem bindTake_balanced : TakeBalanced bindTake := by
  intro p c s h
  simp only [bindTake]
  split
  · exact h.refuse _ _
  · rename_i code _
    split
    · exact h.refuse _ _
    · split
      · exact h.refuse _ _
      · exact (h.of_eq (s.account_setBinding p code _)).complete _ _ _ _

theorem unbindTake_balanced : TakeBalanced unbindTake := by
  intro p c s h
  simp only [unbindTake]
  split
  · exact h.refuse _ _
  · rename_i code _
    split <;> exact (h.of_eq (s.account_setBinding p code none)).complete _ _ _ _

theorem queryTake_balanced : TakeBalanced queryTake := by
  intro p c s h
  simp only [queryTake]
  split
  · exact h.refuse _ _
  · split
    · exact h.refuse _ _
    · exact h.complete _ _ _ _

theorem listTake_balanced : TakeBalanced listTake := by
  intro p c s h
  unfold listTake
  split
  · exact h.of_eq rfl
  · exact h.refuse _ _

theorem revokeTake_balanced : TakeBalanced revokeTake := by
  intro p c s h
  simp only [revokeTake]
  split
  · exact h.refuse _ _
  · exact ((h.retire _).of_eq (State.account_place _ _ _ _)).complete _ _ _ _

theorem suspendTake_balanced : TakeBalanced suspendTake := by
  intro p c s h
  simp only [suspendTake]
  split
  · exact h.refuse _ _
  · rename_i r hf
    split
    · exact h.refuse _ _
    · exact ((h.setLive _ r (suspendReservation r) hf rfl).of_eq (by simp)).complete _ _ _ _

theorem resumeTake_balanced : TakeBalanced resumeTake := by
  intro p c s h
  simp only [resumeTake]
  split
  · exact h.refuse _ _
  · rename_i r hf
    split
    · exact h.refuse _ _
    · exact ((h.setLive _ r (resumeReservation r) hf rfl).of_eq (State.account_placeIf _ _ _ _)).complete _ _ _ _

theorem demoteTake_balanced : TakeBalanced demoteTake := by
  intro p c s h
  unfold demoteTake
  split
  · exact h.refuse _ _
  · rename_i q _
    exact State.balanced.complete (s := { s with pointers := Vector.replicate 6 q }) (h.of_eq rfl) _ _ _ _

theorem claim_cleared (r : Reservation) : (clearFenceReservation r).claim = r.claim := by
  unfold clearFenceReservation
  split <;> rfl

@[simp] theorem State.account_clearFenceAt (s : State) (q : Port) (k : Slot) :
    (s.clearFenceAt q k).account = s.account := by
  unfold State.clearFenceAt
  split
  · rfl
  · rename_i r hl
    split
    · rw [State.account_placeIf, s.account_setLive k r _ hl (claim_cleared r)]
    · rfl

@[simp] theorem State.account_clearFence (s : State) (q : Port) : (s.clearFence q).account = s.account := by
  have cleared : ∀ (l : List Slot) (s : State), (l.foldl (fun s k => s.clearFenceAt q k) s).account = s.account := by
    intro l
    induction l with
    | nil => exact fun s => rfl
    | cons k l ih => exact fun s => (ih _).trans (s.account_clearFenceAt q k)
  simp only [State.clearFence]
  split <;> simp [cleared]

theorem clearFenceTake_balanced : TakeBalanced clearFenceTake := by
  intro p c s h
  unfold clearFenceTake
  split
  · exact h.refuse _ _
  · split
    · exact h.refuse _ _
    · exact (h.of_eq (s.account_clearFence _)).complete _ _ _ _

/-- The totals fit the configuration that becomes pending (R38). -/
theorem setFrameTake_balanced : TakeBalanced setFrameTake := by
  intro p c s h
  by_cases hrange : frameInRange (frameFields c) = true
  · cases hr : s.frameRuling (frameFields c) with
    | some x => rw [setFrameTake_refused p c s hrange x hr]; exact h.refuse _ _
    | none =>
      have fit := (s.frameRuling_eq_none _).1 hr
      rw [setFrameTake_done p c s hrange fit]
      exact State.balanced.complete (s := { s with pendingConfig := some (frameFields c) })
        (Account.balanced.pend h _ fit) _ _ _ _
  · rw [setFrameTake_badField p c s hrange]
    exact h.refuse _ _

theorem resetTableTake_balanced : TakeBalanced resetTableTake := fun _ _ _ h => h.of_eq rfl

theorem queryPortTake_balanced : TakeBalanced queryPortTake := by
  intro p c s h
  unfold queryPortTake
  split
  · exact h.refuse _ _
  · exact h.complete _ _ _ _

theorem badTake_balanced : TakeBalanced badTake := fun _ _ _ h => h.refuse _ _

theorem TakeBalanced.supervisorOnly {body : Port → Vector Byte 16 → State → State} (hb : TakeBalanced body) :
    TakeBalanced (supervisorOnly body) := by
  intro p c s h
  unfold Machine.supervisorOnly
  split
  · exact hb p c s h
  · exact h.refuse _ _

/-- The take of any code (R150, R198). -/
theorem takeOf_balanced (b : Byte) : TakeBalanced (takeOf b) := by
  intro p c s h
  unfold takeOf
  split
  · exact openTake_balanced p c s h
  · exact modifyTake_balanced p c s h
  · exact renewTake_balanced p c s h
  · exact closeTake_balanced p c s h
  · exact bindTake_balanced p c s h
  · exact unbindTake_balanced p c s h
  · exact queryTake_balanced p c s h
  · exact listTake_balanced p c s h
  · exact openForTake_balanced.supervisorOnly p c s h
  · exact revokeTake_balanced.supervisorOnly p c s h
  · exact suspendTake_balanced.supervisorOnly p c s h
  · exact resumeTake_balanced.supervisorOnly p c s h
  · exact demoteTake_balanced.supervisorOnly p c s h
  · exact clearFenceTake_balanced.supervisorOnly p c s h
  · exact setFrameTake_balanced.supervisorOnly p c s h
  · exact resetTableTake_balanced.supervisorOnly p c s h
  · exact queryPortTake_balanced.supervisorOnly p c s h
  · exact badTake_balanced p c s h

theorem State.balanced.take {s : State} (h : s.balanced) (isCode : Byte → Bool)
    {body : Port → Vector Byte 16 → State → State} (hb : TakeBalanced body) : (s.take isCode body).balanced := by
  rcases s.take_cases isCode body with e | ⟨p, rest, c, -, -, e⟩
  · rw [e]; exact h
  · rw [e]; exact hb p c { s with cmdQueue := rest } (h.of_eq rfl)

/-! ## The events that may wait no longer -/

theorem State.balanced.commandStep {s : State} (h : s.balanced) : s.commandStep.balanced := by
  unfold State.commandStep
  split
  · exact h.walkStep
  · exact h.take _ fun p c => takeOf_balanced (byteAt c 0) p c

theorem State.balanced.takeAhead {s : State} (h : s.balanced) (k : Slot) (fuel : Nat) : (s.takeAhead k fuel).balanced := by
  induction fuel generalizing s with
  | zero => exact h
  | succ n ih =>
    unfold State.takeAhead
    split
    · exact ih h.commandStep
    · exact h

theorem State.balanced.sweepRest {s : State} (h : s.balanced) (fuel : Nat) : (s.sweepRest fuel).balanced := by
  induction fuel generalizing s with
  | zero => exact h
  | succ n ih =>
    unfold State.sweepRest
    split
    · exact h
    · exact ih (h.takeAhead _ _).sweepStep

theorem State.balanced.overdueWalk {s : State} (h : s.balanced) (n fuel : Nat) : (s.overdueWalk n fuel).balanced := by
  induction fuel generalizing s with
  | zero => exact h
  | succ m ih =>
    unfold State.overdueWalk
    split
    · exact ih h.walkStep
    · exact h

theorem State.balanced.tickWalk {s : State} (h : s.balanced) : s.tickWalk.balanced := by
  unfold State.tickWalk
  split
  · exact h
  · exact (h.of_eq (s.account_setWalk _)).overdueWalk _ _

theorem State.balanced.takeOverdue {s : State} (h : s.balanced) : s.takeOverdue.balanced := by
  unfold State.takeOverdue
  split
  · exact h.tickWalk
  · exact h.tickWalk.sweepRest 32

/-! ## Every command -/

/-- An outcome that goes on with a balanced account. -/
def StaysBalanced (o : Result) : Prop := ∃ t : State, o = .next t ∧ t.balanced

theorem State.balanced.next {t : State} (h : t.balanced) : StaysBalanced (.next t) := ⟨t, rfl, h⟩

theorem State.balanced.next_of_eq {s t : State} (h : s.balanced) (e : t.account = s.account) :
    StaysBalanced (.next t) := (h.of_eq e).next

/-- An event that arises only under a condition, and changes nothing where it does not arise (log entry 2). -/
theorem State.balanced.unless {s t : State} (h : s.balanced) (c : Prop) [Decidable c] (ht : t.balanced) :
    StaysBalanced (if c then .next s else .next t) := by
  split
  · exact h.next
  · exact ht.next

theorem execResetRelease_balanced (sup : Port) (wb : BitVec 4) {s : State} (h : s.balanced) :
    StaysBalanced (execResetRelease sup wb s) := by
  unfold execResetRelease
  split
  · exact s.powerOn_balanced.next_of_eq rfl
  · exact h.next

theorem execAttach_balanced (p : Port) {s : State} (h : s.balanced) : StaysBalanced (execAttach p s) := by
  have level : State.balanced { s with pres := bankSet s.pres p true } := h.of_eq rfl
  simp only [execAttach]
  split
  · exact level.next
  · split
    · exact level.next_of_eq (State.account_setPort _ p _)
    · exact level.next

theorem execDetach_balanced (p : Port) {s : State} (h : s.balanced) : StaysBalanced (execDetach p s) := by
  have level : State.balanced { s with pres := bankSet s.pres p false } := h.of_eq rfl
  simp only [execDetach]
  split
  · exact level.next
  · split
    · exact level.next
    · exact (level.detachPort p).next

theorem execRequest_balanced (p : Port) (c : SelCode) {s : State} (h : s.balanced) :
    StaysBalanced (execRequest p c s) := by
  have level : State.balanced { s with sel := bankSet s.sel p c, req := bankSet s.req p true } := h.of_eq rfl
  simp only [execRequest]
  split
  · exact level.next
  · split
    · exact level.next_of_eq (State.account_makeEntry _ p)
    · exact level.next

theorem execAddressStrobe_balanced (a : Address) (w : Bool) {s : State} (h : s.balanced) :
    StaysBalanced (execAddressStrobe a w s) := by
  unfold execAddressStrobe
  split
  · exact h.next
  · split <;> exact h.next_of_eq rfl

theorem execGrantDecision_balanced {s : State} (h : s.balanced) : StaysBalanced (execGrantDecision s) := by
  unfold execGrantDecision
  split
  · exact h.next
  · split
    · exact h.next
    · exact h.next_of_eq rfl

theorem execGraceExpiry_balanced {s : State} (h : s.balanced) : StaysBalanced (execGraceExpiry s) := by
  unfold execGraceExpiry
  split
  · exact h.next_of_eq (s.account_expireGrace _)
  · exact h.next

theorem execDrainExpiry_balanced {s : State} (h : s.balanced) : StaysBalanced (execDrainExpiry s) := by
  unfold execDrainExpiry
  split
  · exact h.next_of_eq (s.account_expireDrain _)
  · exact h.next

theorem exec_balanced (i : Instr) {s : State} (h : s.balanced) : StaysBalanced (exec i s) := by
  have ready (is : WindowAccess → Bool) (d : Byte) : StaysBalanced (.next (s.readyOf is d)) :=
    h.next_of_eq (s.account_readyOf is d)
  cases i with
  | resetAssert => exact s.powerOn_balanced.next
  | resetRelease sup wb => exact execResetRelease_balanced sup wb h
  | attach p => exact execAttach_balanced p h
  | detach p => exact execDetach_balanced p h
  | request p c => exact execRequest_balanced p c h
  | withdrawal p => exact h.next_of_eq (s.account_requestFalls p)
  | release p => exact h.next_of_eq (s.account_requestFalls p)
  | addressStrobe a w => exact execAddressStrobe_balanced a w h
  | ready d => exact h.next_of_eq (s.account_readyEvent d)
  | idleLimit => exact h.unless _ (h.of_eq s.account_idleTick)
  | graceExpiry => exact execGraceExpiry_balanced h
  | drainExpiry => exact execDrainExpiry_balanced h
  | boundary => exact h.unless _ h.takeOverdue.boundaryEvent
  | sweepVisit => exact h.unless _ h.sweepStep
  | grantDecision => exact execGrantDecision_balanced h
  | trigger v => exact ready _ v
  | windowWrite v => exact ready _ v
  | portControlWrite v => exact ready _ v
  | noticeTake => exact ready _ 0
  | timeSnapshot => exact ready _ 0
  | takeBadCommand => exact (h.take _ badTake_balanced).next
  | takeOpen => exact (h.take _ openTake_balanced).next
  | takeModify => exact (h.take _ modifyTake_balanced).next
  | takeRenew => exact (h.take _ renewTake_balanced).next
  | takeClose => exact (h.take _ closeTake_balanced).next
  | takeBind => exact (h.take _ bindTake_balanced).next
  | takeUnbind => exact (h.take _ unbindTake_balanced).next
  | takeQuery => exact (h.take _ queryTake_balanced).next
  | takeList => exact (h.take _ listTake_balanced).next
  | listVisit => exact h.unless _ h.walkStep
  | takeOpenFor => exact (h.take _ openForTake_balanced.supervisorOnly).next
  | takeRevoke => exact (h.take _ revokeTake_balanced.supervisorOnly).next
  | takeSuspend => exact (h.take _ suspendTake_balanced.supervisorOnly).next
  | takeResume => exact (h.take _ resumeTake_balanced.supervisorOnly).next
  | takeDemote => exact (h.take _ demoteTake_balanced.supervisorOnly).next
  | takeClearFence => exact (h.take _ clearFenceTake_balanced.supervisorOnly).next
  | takeSetFrame => exact (h.take _ setFrameTake_balanced.supervisorOnly).next
  | takeResetTable => exact (h.take _ resetTableTake_balanced.supervisorOnly).next
  | resetTableVisit => exact h.unless _ h.walkStep
  | takeQueryPort => exact (h.take _ queryPortTake_balanced.supervisorOnly).next
  | tick => exact h.unless _ (h.takeOverdue.of_eq (State.account_tenureTick _)).frameTick

/-- Settles O51: every command keeps the account balanced. -/
theorem accountStaysExactAndWithinLimits : Obligations.AccountStaysExactAndWithinLimits := by
  intro s t hexact hlimits hstep
  have h : s.balanced := s.balanced_iff.2 ⟨hexact, hlimits⟩
  rw [← State.balanced_iff]
  unfold step at hstep
  split at hstep
  · cases hstep
    exact h
  · rename_i i rest _
    have waiting : State.balanced { s with pending := rest } := h.of_eq rfl
    obtain ⟨v, hv, hb⟩ := exec_balanced i waiting
    cases hv.symm.trans hstep
    exact hb

end Sys2Proof.Machine


namespace Sys2Proof.Machine

/-! # The clock

What the laws of R46, R49, R55 and R149 read of a state is its `State.clock`: the two configurations, the tick count,
the sweep and the pace of the walk. Most events leave it. -/

/-- What the laws of time read. -/
structure Clock where
  config : FrameConfig
  pendingConfig : Option FrameConfig
  tickCount : Nat
  sweep : Option Slot
  /-- the ticks since the take and the visits taken, of the walk in progress -/
  pace : Option (Nat × Nat)

/-- The ticks of a walk since its take, and the visits it has taken (R148, R149). -/
def Walk.pace (w : Walk) : Nat × Nat := (w.ticks, w.next.val)

/-- The clock of a state. -/
def State.clock (s : State) : Clock where
  config := s.config
  pendingConfig := s.pendingConfig
  tickCount := s.tickCount
  sweep := s.sweep
  pace := s.walk.map Walk.pace

namespace Clock

/-- The laws of time (R46, R49, R55, R149). -/
structure lawful (c : Clock) : Prop where
  config : frameInRange c.config = true
  pending : ∀ f, c.pendingConfig = some f → frameInRange f = true
  ticks : c.tickCount < c.config.frameTicks
  sweep : c.sweep ≠ none → c.tickCount < Config.sweepTicks
  pace : ∀ x, c.pace = some x → x.1 ≤ x.2

/-- The pace after one more visit of the walk, which S31 ends (R148). -/
def visited (x : Option (Nat × Nat)) : Option (Nat × Nat) :=
  x.bind fun y => if y.2 + 1 < 32 then some (y.1, y.2 + 1) else none

theorem lawful.setPace {c : Clock} (h : c.lawful) (x : Option (Nat × Nat)) (hx : ∀ y, x = some y → y.1 ≤ y.2) :
    lawful { c with pace := x } := ⟨h.config, h.pending, h.ticks, h.sweep, hx⟩

theorem lawful.setSweep {c : Clock} (h : c.lawful) (x : Option Slot) (hx : x ≠ none → c.sweep ≠ none) :
    lawful { c with sweep := x } := ⟨h.config, h.pending, h.ticks, fun hs => h.sweep (hx hs), h.pace⟩

theorem lawful.pend {c : Clock} (h : c.lawful) (f : FrameConfig) (hf : frameInRange f = true) :
    lawful { c with pendingConfig := some f } :=
  ⟨h.config, fun g hg => by cases hg; exact hf, h.ticks, h.sweep, h.pace⟩

/-- The tick count raised below FT, after a sweep that the sixteenth tick finds at its end (R49, R55). -/
theorem lawful.raise {c : Clock} (h : c.lawful) (hn : c.tickCount + 1 < c.config.frameTicks)
    (hs : c.sweep ≠ none → c.tickCount + 1 < Config.sweepTicks) : lawful { c with tickCount := c.tickCount + 1 } :=
  ⟨h.config, h.pending, hn, hs, h.pace⟩

/-- A boundary: the configuration that takes force has a frame of sixteen ticks at least (R46, R50). -/
theorem lawful.advance {c : Clock} (h : c.lawful) :
    lawful
      { c with
        tickCount := 0, config := c.pendingConfig.getD c.config, pendingConfig := none, sweep := some 0 } := by
  have range : frameInRange (c.pendingConfig.getD c.config) = true := by
    cases hp : c.pendingConfig with
    | none => exact h.config
    | some f => exact h.pending f hp
  obtain ⟨-, -, ⟨ticks, -⟩, -⟩ := (frameInRange_iff _).1 range
  exact ⟨range, fun f hf => by simp at hf, by simpa using by omega, fun _ => Nat.zero_lt_succ 15, h.pace⟩

theorem visited_onTime (x : Option (Nat × Nat)) (hx : ∀ y, x = some y → y.1 ≤ y.2) :
    ∀ y, visited x = some y → y.1 ≤ y.2 := by
  intro y hy
  simp only [visited, Option.bind_eq_some_iff, Option.ite_none_right_eq_some, Option.some.injEq] at hy
  obtain ⟨z, hz, -, rfl⟩ := hy
  have := hx z hz
  dsimp only
  omega

end Clock

/-- The state keeps the laws of time. -/
def State.onTime (s : State) : Prop := s.clock.lawful

theorem State.onTime_iff (s : State) : s.onTime ↔ s.timeSound ∧ s.walkOnTime := by
  have pace : (∀ x, s.clock.pace = some x → x.1 ≤ x.2) ↔ s.walkOnTime := by
    simp only [State.clock, Option.map_eq_some_iff, State.walkOnTime]
    exact ⟨fun h w hw => h w.pace ⟨w, hw, rfl⟩, fun h x ⟨w, hw, e⟩ => e ▸ h w hw⟩
  constructor
  · rintro ⟨hc, hp, ht, hs, hw⟩
    exact ⟨⟨hc, hp, ht, hs⟩, pace.1 hw⟩
  · rintro ⟨⟨hc, hp, ht, hs⟩, hw⟩
    exact ⟨hc, hp, ht, hs, pace.2 hw⟩

theorem State.onTime.of_eq {s t : State} (h : s.onTime) (e : t.clock = s.clock) : t.onTime := by
  rw [State.onTime, e]
  exact h

/-! ## The clock after the shared operations -/

@[simp] theorem State.clock_testYield (s : State) : s.testYield.clock = s.clock := by
  obtain ⟨a, b, h⟩ := s.testYield_frame; rw [h]; rfl

@[simp] theorem State.clock_withdrawDrawing (s : State) (h : Handle) (cls : ResClass) :
    (s.withdrawDrawing h cls).clock = s.clock := by
  obtain ⟨a, b, e⟩ := s.withdrawDrawing_frame h cls; rw [e]; rfl

@[simp] theorem State.clock_setPortState (s : State) (p : Port) (x : PortState) :
    (s.setPortState p x).clock = s.clock := rfl

@[simp] theorem State.clock_setWaiting (s : State) (p : Port) (e : Option WaitingEntry) :
    (s.setWaiting p e).clock = s.clock := rfl

@[simp] theorem State.clock_setLive (s : State) (k : Slot) (r : Reservation) : (s.setLive k r).clock = s.clock := rfl

@[simp] theorem State.clock_writeOpening (s : State) (k : Slot) (r : Reservation) :
    (s.writeOpening k r).clock = s.clock := rfl

@[simp] theorem State.clock_replaceContribution (s : State) (a b : Reservation) :
    (s.replaceContribution a b).clock = s.clock := rfl

@[simp] theorem State.clock_setBinding (s : State) (p : Port) (c : SelCode) (h : Option Handle) :
    (s.setBinding p c h).clock = s.clock := rfl

@[simp] theorem State.clock_setPointers (s : State) (v : Vector Port 6) :
    ({ s with pointers := v } : State).clock = s.clock := rfl

theorem State.clock_setWalk (s : State) (w : Option Walk) :
    ({ s with walk := w } : State).clock = { s.clock with pace := w.map Walk.pace } := rfl

@[simp] theorem State.clock_place (s : State) (p : Port) (k : NoticeKind) (x : Subject) :
    (s.place p k x).clock = s.clock := by
  obtain ⟨a, h⟩ := s.place_frame p k x; rw [h]; rfl

@[simp] theorem State.clock_placeIf (s : State) (p : Port) (k : Option NoticeKind) (x : Subject) :
    (s.placeIf p k x).clock = s.clock := by
  obtain ⟨a, h⟩ := s.placeIf_frame p k x; rw [h]; rfl

@[simp] theorem State.clock_placeTableReset (s : State) : s.placeTableReset.clock = s.clock := by
  obtain ⟨a, h⟩ := s.placeTableReset_frame; rw [h]; rfl

@[simp] theorem State.clock_complete (s : State) (p : Port) (x : ReplyStatus) (n : Nat) (bs : List Byte) :
    (s.complete p x n bs).clock = s.clock := by
  obtain ⟨a, h⟩ := s.complete_frame p x n bs; rw [h]; rfl

@[simp] theorem State.clock_refuse (s : State) (p : Port) (x : ReplyStatus) : (s.refuse p x).clock = s.clock :=
  s.clock_complete p x 0 []

@[simp] theorem State.clock_retire (s : State) (k : Slot) : (s.retire k).clock = s.clock := by
  obtain ⟨a, b, c, d, e, f, g, h⟩ := s.retire_frame k; rw [h]; rfl

@[simp] theorem State.clock_retireOwned (s : State) (p : Port) : (s.retireOwned p).clock = s.clock := by
  obtain ⟨a, b, c, d, e, f, g, h⟩ := s.retireOwned_frame p; rw [h]; rfl

@[simp] theorem State.clock_makeEntry (s : State) (p : Port) : (s.makeEntry p).clock = s.clock := by
  obtain ⟨a, b, h⟩ := s.makeEntry_frame p; rw [h]; rfl

theorem State.clock_requestFalls (s : State) (p : Port) : (s.requestFalls p).clock = s.clock := by
  obtain ⟨a, b, c, d, h⟩ := s.requestFalls_frame p; rw [h]; rfl

theorem State.clock_readyEvent (s : State) (d : Byte) : (s.readyEvent d).clock = s.clock := by
  obtain ⟨a, b, c, e, f, g, h, i, j, k, l, eq⟩ := s.readyEvent_frame d; rw [eq]; rfl

theorem State.clock_readyOf (s : State) (is : WindowAccess → Bool) (d : Byte) : (s.readyOf is d).clock = s.clock := by
  unfold State.readyOf
  split
  · split
    · exact s.clock_readyEvent d
    · rfl
  · exact s.clock_readyEvent d

/-! ## A tick at the Tenure Monitor -/

theorem State.place_place_frame (s : State) (p q : Port) (k l : NoticeKind) (x y : Subject) :
    ∃ a, (s.place p k x).place q l y = { s with notices := a } := by
  obtain ⟨a, h⟩ := s.place_frame p k x
  obtain ⟨b, h'⟩ := (s.place p k x).place_frame q l y
  exact ⟨b, by rw [h', h]⟩

theorem State.expireGrace_frame (s : State) (p : Port) :
    ∃ a b c d e, s.expireGrace p = { s with
      ports := a, table := b, tenure := c, notices := d, pendingOrder := e } := by
  unfold State.expireGrace
  split
  · exact ⟨_, s.table, none, _, _, (State.place_frame _ p .forced .none).choose_spec⟩
  · exact ⟨_, _, none, _, _,
      (State.place_place_frame _ p s.supervisor .fenced .portFenced .none (.port p)).choose_spec⟩

theorem State.idleTick_frame (s : State) : ∃ a b, s.idleTick = { s with ports := a, tenure := b } := by
  unfold State.idleTick
  split
  · exact ⟨s.ports, s.tenure, rfl⟩
  · split
    · exact (State.testYield_frame _).imp fun _ h => h.imp fun _ e => e
    · exact ⟨s.ports, s.tenure, rfl⟩

theorem State.tenureTick_frame (s : State) :
    ∃ a b c d e, s.tenureTick = { s with
      ports := a, table := b, tenure := c, notices := d, pendingOrder := e } := by
  unfold State.tenureTick
  split
  · exact s.expireGrace_frame _
  · exact ⟨_, s.table, none, s.notices, _, rfl⟩
  · exact ⟨s.ports, s.table, s.tenure, s.notices, s.pendingOrder, rfl⟩
  · split
    · exact ⟨s.ports, s.table, _, s.notices, s.pendingOrder, rfl⟩
    · exact ⟨s.ports, s.table, _, s.notices, s.pendingOrder, rfl⟩
    · obtain ⟨a, b, h⟩ := s.idleTick_frame
      exact ⟨a, s.table, b, s.notices, s.pendingOrder, h⟩

end Sys2Proof.Machine

namespace Sys2Proof.Machine

/-! ## The clock after visits and takes -/

/-- The slot after this one is the next number, and S31 has none after it (R54, R148). -/
theorem nextSlot_iff (k : Slot) (x : Option Slot) :
    nextSlot k = x ↔ (x = none ↔ k.val = 31) ∧ ∀ j, x = some j → j.val = k.val + 1 := by
  have := k.isLt
  unfold nextSlot
  split
  · rename_i h
    constructor
    · rintro rfl
      exact ⟨by simp; omega, fun j hj => by cases hj; rfl⟩
    · rintro ⟨hlast, hnext⟩
      obtain ⟨j, rfl⟩ := Option.ne_none_iff_exists'.1 fun e => absurd (hlast.1 e) (by omega)
      exact congrArg some (Fin.ext (hnext j rfl).symm)
  · rename_i h
    constructor
    · rintro rfl
      exact ⟨by simp; omega, fun j hj => by simp at hj⟩
    · rintro ⟨hlast, -⟩
      exact (hlast.2 (by omega)).symm

theorem Clock.visited_pace (w : Walk) :
    Clock.visited (some w.pace) = (nextSlot w.next).map fun k => (w.ticks, k.val) := by
  by_cases h : w.next.val + 1 < 32 <;> simp [Clock.visited, Walk.pace, nextSlot, h]

/-- A visit of the walk counts in its pace alone (R148). -/
theorem State.clock_walkStep (s : State) :
    s.walkStep.clock = { s.clock with pace := Clock.visited s.clock.pace } := by
  unfold State.walkStep
  split
  · rename_i hw
    simp [State.clock, hw, Clock.visited]
  · rename_i w hw
    have pace : Clock.visited s.clock.pace = (nextSlot w.next).map fun k => (w.ticks, k.val) := by
      rw [← Clock.visited_pace, State.clock, hw]; rfl
    rw [pace]
    split
    · simp only [State.listStep]
      split
      · rename_i k hk; rw [State.clock_setWalk, hk]; rfl
      · rename_i hk; rw [State.clock_complete, State.clock_setWalk, hk]; rfl
    · simp only [State.resetTableStep]
      split
      · rename_i k hk; rw [State.clock_setWalk, State.clock_retire, hk]; rfl
      · rename_i hk
        split
        · rw [State.clock_setWalk, State.clock_placeTableReset, State.clock_retire, hk]; rfl
        · rw [State.clock_complete, State.clock_setWalk, State.clock_placeTableReset, State.clock_retire, hk]; rfl

/-- A walk in progress after a visit was in progress before it, one visit back and with its ticks as they are (R148). -/
theorem State.walkStep_walk (s : State) (w : Walk) (hw : s.walkStep.walk = some w) :
    ∃ v, s.walk = some v ∧ w.ticks = v.ticks ∧ w.next.val = v.next.val + 1 := by
  have pace : some w.pace = Clock.visited (s.walk.map Walk.pace) := by
    rw [← Option.map_some, ← hw]
    exact congrArg Clock.pace s.clock_walkStep
  cases hv : s.walk with
  | none => rw [hv] at pace; cases pace
  | some v =>
    rw [hv, Option.map_some, Clock.visited_pace] at pace
    obtain ⟨k, hk, e⟩ := Option.map_eq_some_iff.1 pace.symm
    have next := ((nextSlot_iff v.next (some k)).1 hk).2 k rfl
    simp only [Walk.pace, Prod.mk.injEq] at e
    exact ⟨v, rfl, by omega⟩

/-- A visit of the sweep moves the sweep alone (R54). -/
theorem State.clock_sweepStep (s : State) : s.sweepStep.clock = { s.clock with sweep := s.sweep.bind nextSlot } := by
  unfold State.sweepStep
  split
  · rename_i hs; simp [State.clock, hs]
  · rename_i k hs
    obtain ⟨a, b, c, d, e, f, g, h, eq⟩ := s.visitSlot_frame k
    rw [eq]
    simp [State.clock, hs]

theorem State.onTime.walkStep {s : State} (h : s.onTime) : s.walkStep.onTime := by
  rw [State.onTime, s.clock_walkStep]
  exact Clock.lawful.setPace h _ (Clock.visited_onTime _ h.pace)

theorem State.onTime.sweepStep {s : State} (h : s.onTime) : s.sweepStep.onTime := by
  rw [State.onTime, s.clock_sweepStep]
  refine Clock.lawful.setSweep h _ fun hne hs => hne ?_
  have none : s.sweep = none := hs
  simp [none]

/-- A take's body leaves the clock. -/
def TakeKeepsClock (body : Port → Vector Byte 16 → State → State) : Prop :=
  ∀ p c (s : State), (body p c s).clock = s.clock

/-- A take's body keeps the laws of time. -/
def TakeOnTime (body : Port → Vector Byte 16 → State → State) : Prop :=
  ∀ p c (s : State), s.onTime → (body p c s).onTime

theorem TakeKeepsClock.onTime {body : Port → Vector Byte 16 → State → State} (hb : TakeKeepsClock body) :
    TakeOnTime body := fun p c s h => h.of_eq (hb p c s)

theorem TakeOnTime.supervisorOnly {body : Port → Vector Byte 16 → State → State} (hb : TakeOnTime body) :
    TakeOnTime (supervisorOnly body) := by
  intro p c s h
  unfold Machine.supervisorOnly
  split
  · exact hb p c s h
  · exact h.of_eq (s.clock_refuse _ _)

theorem openTake_clock : TakeKeepsClock openTake := by
  intro p c s
  unfold openTake
  split
  · simp
  · split <;> simp [State.admitOpening]

theorem State.clock_applyChanges (s : State) (ch : Changes) (h : Handle) (r : Reservation) :
    (s.applyChanges ch h r).clock = s.clock := by
  simp only [State.applyChanges]
  split <;> simp

theorem modifyTake_clock : TakeKeepsClock modifyTake := by
  intro p c s
  simp only [modifyTake]
  split
  · simp
  · split
    · simp
    · split
      · simp
      · split
        · simp
        · split
          · simp
          · split <;> simp [State.clock_applyChanges]

theorem renewTake_clock : TakeKeepsClock renewTake := by
  intro p c s
  simp only [renewTake]
  split
  · simp
  · split <;> simp

theorem closeTake_clock : TakeKeepsClock closeTake := by
  intro p c s
  simp only [closeTake]
  split
  · simp
  · split <;> simp

theorem bindTake_clock : TakeKeepsClock bindTake := by
  intro p c s
  simp only [bindTake]
  split
  · simp
  · split
    · simp
    · split <;> simp

theorem unbindTake_clock : TakeKeepsClock unbindTake := by
  intro p c s
  simp only [unbindTake]
  split
  · simp
  · split <;> simp

theorem queryTake_clock : TakeKeepsClock queryTake := by
  intro p c s
  simp only [queryTake]
  split
  · simp
  · split <;> simp

theorem openForTake_clock : TakeKeepsClock openForTake := by
  intro p c s
  unfold openForTake
  split
  · split
    · simp
    · split <;> simp [State.admitOpening]
  · simp

theorem revokeTake_clock : TakeKeepsClock revokeTake := by
  intro p c s
  simp only [revokeTake]
  split <;> simp

theorem suspendTake_clock : TakeKeepsClock suspendTake := by
  intro p c s
  simp only [suspendTake]
  split
  · simp
  · split <;> simp

theorem resumeTake_clock : TakeKeepsClock resumeTake := by
  intro p c s
  simp only [resumeTake]
  split
  · simp
  · split <;> simp

theorem demoteTake_clock : TakeKeepsClock demoteTake := by
  intro p c s
  unfold demoteTake
  split <;> simp

theorem State.clock_clearFenceAt (s : State) (q : Port) (k : Slot) : (s.clearFenceAt q k).clock = s.clock := by
  unfold State.clearFenceAt
  split
  · rfl
  · split <;> simp

theorem State.clock_clearFence (s : State) (q : Port) : (s.clearFence q).clock = s.clock := by
  have cleared : ∀ (l : List Slot) (s : State), (l.foldl (fun s k => s.clearFenceAt q k) s).clock = s.clock := by
    intro l
    induction l with
    | nil => exact fun s => rfl
    | cons k l ih => exact fun s => (ih _).trans (s.clock_clearFenceAt q k)
  simp only [State.clearFence]
  split <;> simp [cleared]

theorem clearFenceTake_clock : TakeKeepsClock clearFenceTake := by
  intro p c s
  unfold clearFenceTake
  split
  · simp
  · split <;> simp [State.clock_clearFence]

theorem queryPortTake_clock : TakeKeepsClock queryPortTake := by
  intro p c s
  unfold queryPortTake
  split <;> simp

theorem badTake_clock : TakeKeepsClock badTake := fun p _ s => s.clock_refuse p _

/-- A walk begins with no tick to catch up (R148, R149). -/
theorem State.onTime.beginWalk {s : State} (h : s.onTime) (p : Port) (kind : WalkKind) : (s.beginWalk p kind).onTime :=
  Clock.lawful.setPace h (some (0, 0)) fun y hy => by cases hy; exact le_rfl

theorem listTake_onTime : TakeOnTime listTake := by
  intro p c s h
  unfold listTake
  split
  · exact h.beginWalk _ _
  · exact h.of_eq (s.clock_refuse _ _)

theorem resetTableTake_onTime : TakeOnTime resetTableTake := fun p _ _ h => h.beginWalk p _

/-- The configuration that becomes pending is in range (R46, R184). -/
theorem setFrameTake_onTime : TakeOnTime setFrameTake := by
  intro p c s h
  by_cases hrange : frameInRange (frameFields c) = true
  · cases hr : s.frameRuling (frameFields c) with
    | some x => rw [setFrameTake_refused p c s hrange x hr]; exact h.of_eq (s.clock_refuse _ _)
    | none =>
      rw [setFrameTake_done p c s hrange ((s.frameRuling_eq_none _).1 hr)]
      exact State.onTime.of_eq (s := { s with pendingConfig := some (frameFields c) })
        (Clock.lawful.pend h _ hrange) (State.clock_complete _ _ _ _ _)
  · rw [setFrameTake_badField p c s hrange]
    exact h.of_eq (s.clock_refuse _ _)

theorem takeOf_onTime (b : Byte) : TakeOnTime (takeOf b) := by
  intro p c s h
  unfold takeOf
  split
  · exact openTake_clock.onTime p c s h
  · exact modifyTake_clock.onTime p c s h
  · exact renewTake_clock.onTime p c s h
  · exact closeTake_clock.onTime p c s h
  · exact bindTake_clock.onTime p c s h
  · exact unbindTake_clock.onTime p c s h
  · exact queryTake_clock.onTime p c s h
  · exact listTake_onTime p c s h
  · exact openForTake_clock.onTime.supervisorOnly p c s h
  · exact revokeTake_clock.onTime.supervisorOnly p c s h
  · exact suspendTake_clock.onTime.supervisorOnly p c s h
  · exact resumeTake_clock.onTime.supervisorOnly p c s h
  · exact demoteTake_clock.onTime.supervisorOnly p c s h
  · exact clearFenceTake_clock.onTime.supervisorOnly p c s h
  · exact setFrameTake_onTime.supervisorOnly p c s h
  · exact resetTableTake_onTime.supervisorOnly p c s h
  · exact queryPortTake_clock.onTime.supervisorOnly p c s h
  · exact badTake_clock.onTime p c s h

theorem State.onTime.take {s : State} (h : s.onTime) (isCode : Byte → Bool)
    {body : Port → Vector Byte 16 → State → State} (hb : TakeOnTime body) : (s.take isCode body).onTime := by
  rcases s.take_cases isCode body with e | ⟨p, rest, c, -, -, e⟩
  · rw [e]; exact h
  · rw [e]; exact hb p c { s with cmdQueue := rest } h

theorem State.onTime.commandStep {s : State} (h : s.onTime) : s.commandStep.onTime := by
  unfold State.commandStep
  split
  · exact h.walkStep
  · exact h.take _ fun p c => takeOf_onTime (byteAt c 0) p c

/-! ## The events that may wait no longer

What each of their events keeps, all of them together keep. -/

section
variable {law : State → Prop}

theorem State.takeAhead_keeps (command : ∀ s, law s → law s.commandStep) (k : Slot) (fuel : Nat) {s : State}
    (h : law s) : law (s.takeAhead k fuel) := by
  induction fuel generalizing s with
  | zero => exact h
  | succ n ih =>
    unfold State.takeAhead
    split
    · exact ih (command s h)
    · exact h

theorem State.finishSweep_keeps (command : ∀ s, law s → law s.commandStep) (visit : ∀ s, law s → law s.sweepStep)
    {s : State} (h : law s) : law s.finishSweep := by
  unfold State.finishSweep
  generalize 32 = fuel
  induction fuel generalizing s with
  | zero => exact h
  | succ n ih =>
    unfold State.sweepRest
    split
    · exact h
    · exact ih (visit _ (State.takeAhead_keeps command _ _ h))

theorem State.overdueWalk_keeps (visit : ∀ s, law s → law s.walkStep) (n fuel : Nat) {s : State} (h : law s) :
    law (s.overdueWalk n fuel) := by
  induction fuel generalizing s with
  | zero => exact h
  | succ m ih =>
    unfold State.overdueWalk
    split
    · exact ih (visit s h)
    · exact h

end

/-- A sweep taken to its end has ended (R55). -/
theorem State.finishSweep_sweep (s : State) : s.finishSweep.sweep = none := by
  have ends : ∀ (fuel : Nat) (s : State), s.visitsLeft ≤ fuel → (s.sweepRest fuel).sweep = none := by
    intro fuel
    induction fuel with
    | zero =>
      intro s h
      cases hs : s.sweep with
      | none => exact hs
      | some k => simp only [State.visitsLeft, hs] at h; omega
    | succ n ih =>
      intro s h
      unfold State.sweepRest
      split
      · assumption
      · rename_i k hs
        have fewer := State.sweepStep_left (s.takeAhead k s.commandWork) (by simp [hs])
        have left : (s.takeAhead k s.commandWork).visitsLeft = s.visitsLeft := by simp [State.visitsLeft]
        exact ih _ (by omega)
  exact ends 32 s s.visitsLeft_le

/-- The overdue visits leave a walk with as many visits as the ticks they are taken for, or none in progress (R149). -/
theorem State.clock_overdueWalk (n : Nat) (fuel : Nat) (s : State)
    (hw : ∀ w, s.walk = some w → w.ticks = n ∧ 32 ≤ w.next.val + fuel) :
    ∃ x, (s.overdueWalk n fuel).clock = { s.clock with pace := x } ∧ ∀ y, x = some y → y.1 ≤ y.2 := by
  induction fuel generalizing s with
  | zero =>
    have none : s.walk = none := by
      cases h : s.walk with
      | none => rfl
      | some w => have := hw w h; omega
    exact ⟨.none, by simp [State.overdueWalk, State.clock, none], by simp⟩
  | succ m ih =>
    unfold State.overdueWalk
    split
    · have hv : ∀ w, s.walkStep.walk = some w → w.ticks = n ∧ 32 ≤ w.next.val + m := by
        intro w hw'
        obtain ⟨v, h, after⟩ := s.walkStep_walk w hw'
        have before := hw v h
        omega
      obtain ⟨x, hx, onTime⟩ := ih s.walkStep hv
      exact ⟨x, by rw [hx, s.clock_walkStep], onTime⟩
    · rename_i h
      refine ⟨s.clock.pace, rfl, fun y hy => ?_⟩
      obtain ⟨w, h', rfl⟩ := Option.map_eq_some_iff.1 hy
      have := (hw w h').1
      simp [h'] at h
      simp only [Walk.pace]
      omega

end Sys2Proof.Machine

namespace Sys2Proof.Machine

/-! ## What visits, takes and the Tenure Monitor leave alone -/

/-- What no event of time reaches: the reset, the pins, the straps, the snapshots, the latches, the byte on D[7:0] and
the commands that wait. -/
structure Outside where
  rstLow : Bool
  pres : Vector Bool 8
  req : Vector Bool 8
  sel : Vector SelCode 8
  driven : Option Byte
  supervisor : Port
  windowBase : BitVec 4
  snapshots : Vector Snapshot 8
  latches : Vector Latch 8
  pending : List Instr

/-- What the visits, the takes and the Tenure Monitor leave alone: all that no event of time reaches, and the registers
of the frame that the tick and the boundary alone move (R49, R50). -/
structure Steady where
  outside : Outside
  config : FrameConfig
  tickCount : Nat
  frameNumber : BitVec 16
  late : Vector Bool 8

/-- What no event of time reaches, of a state. -/
def State.outside (s : State) : Outside where
  rstLow := s.rstLow
  pres := s.pres
  req := s.req
  sel := s.sel
  driven := s.driven
  supervisor := s.supervisor
  windowBase := s.windowBase
  snapshots := s.snapshots
  latches := s.latches
  pending := s.pending

/-- What the visits, the takes and the Tenure Monitor leave alone, of a state. -/
def State.steady (s : State) : Steady where
  outside := s.outside
  config := s.config
  tickCount := s.tickCount
  frameNumber := s.frameNumber
  late := s.late

/-- A state that agrees outside is the other with its own records. -/
theorem State.eq_of_outside {s t : State} (h : t.outside = s.outside) :
    t = { s with
      ports := t.ports, table := t.table, bindings := t.bindings, committed := t.committed
      preemptTotal := t.preemptTotal, pendingConfig := t.pendingConfig, config := t.config, tickCount := t.tickCount
      frameNumber := t.frameNumber, sweep := t.sweep, waiting := t.waiting, pointers := t.pointers, tenure := t.tenure
      pendingOrder := t.pendingOrder, slots := t.slots, cmdQueue := t.cmdQueue, walk := t.walk, late := t.late
      notices := t.notices } := by
  cases t
  simp only [State.outside, Outside.mk.injEq] at h
  obtain ⟨rfl, rfl, rfl, rfl, rfl, rfl, rfl, rfl, rfl, rfl⟩ := h
  rfl

theorem State.steady_of_kept {s t : State} (h : t.kept = s.kept) : t.steady = s.steady := by
  simp only [State.kept, Prod.mk.injEq] at h
  obtain ⟨rst, pres, req, sel, driven, sup, base, config, ticks, number, -, snaps, -, -, -, late, latches, pending⟩ := h
  simp only [State.steady, State.outside, rst, pres, req, sel, driven, sup, base, config, ticks, number, snaps, late,
    latches, pending]

theorem State.keptOrBegun.steady {s t : State} (h : s.keptOrBegun t) : t.steady = s.steady := by
  rcases h with h | ⟨w, -, h⟩
  · exact State.steady_of_kept h
  · exact (State.steady_of_kept h).trans rfl

theorem State.steady_walkStep (s : State) : s.walkStep.steady = s.steady := by
  obtain ⟨a, b, c, d, e, f, g, h, i, j, eq⟩ := s.walkStep_frame; rw [eq]; rfl

theorem State.steady_sweepStep (s : State) : s.sweepStep.steady = s.steady := by
  obtain ⟨a, b, c, d, e, f, g, h, i, eq⟩ := s.sweepStep_frame; rw [eq]; rfl

theorem State.steady_tenureTick (s : State) : s.tenureTick.steady = s.steady := by
  obtain ⟨a, b, c, d, e, eq⟩ := s.tenureTick_frame; rw [eq]; rfl

theorem State.steady_commandStep (s : State) : s.commandStep.steady = s.steady := by
  unfold State.commandStep
  split
  · exact s.steady_walkStep
  · rcases s.take_cases (fun _ => true) (fun p c => takeOf (byteAt c 0) p c) with e | ⟨p, rest, c, -, -, e⟩
    · rw [State.takeFront, e]
    · rw [State.takeFront, e]
      exact (takeOf_keptOrBegun (byteAt c 0) p c { s with cmdQueue := rest }).steady

theorem State.steady_finishSweep (s : State) : s.finishSweep.steady = s.steady :=
  State.finishSweep_keeps (law := fun u => u.steady = s.steady) (fun u h => u.steady_commandStep.trans h)
    (fun u h => u.steady_sweepStep.trans h) rfl

theorem State.steady_tickWalk (s : State) : s.tickWalk.steady = s.steady := by
  unfold State.tickWalk
  split
  · rfl
  · exact State.overdueWalk_keeps (law := fun u => u.steady = s.steady) (fun u h => u.steady_walkStep.trans h) _ _ rfl

theorem State.steady_takeOverdue (s : State) : s.takeOverdue.steady = s.steady := by
  unfold State.takeOverdue
  split
  · exact s.steady_tickWalk
  · exact s.tickWalk.steady_finishSweep.trans s.steady_tickWalk

/-! ## The clock after a tick -/

theorem State.clock_tenureTick (s : State) : s.tenureTick.clock = s.clock := by
  obtain ⟨a, b, c, d, e, eq⟩ := s.tenureTick_frame; rw [eq]; rfl

theorem State.onTime.finishSweep {s : State} (h : s.onTime) : s.finishSweep.onTime :=
  State.finishSweep_keeps (law := State.onTime) (fun _ h => h.commandStep) (fun _ h => h.sweepStep) h

/-- A tick brings the walk to as many visits as its ticks, and moves nothing else of the clock (R149). -/
theorem State.clock_tickWalk (s : State) :
    ∃ x, s.tickWalk.clock = { s.clock with pace := x } ∧ ∀ y, x = some y → y.1 ≤ y.2 := by
  unfold State.tickWalk
  split
  · rename_i hw
    exact ⟨none, by simp [State.clock, hw], by simp⟩
  · rename_i w hw
    obtain ⟨x, hx, onTime⟩ := State.clock_overdueWalk (w.ticks + 1) 32
      { s with walk := some { w with ticks := w.ticks + 1 } } fun v hv => by cases hv; exact ⟨rfl, by omega⟩
    exact ⟨x, hx, onTime⟩

theorem State.tickWalk_sweep (s : State) : s.tickWalk.sweep = s.sweep := by
  obtain ⟨x, h, -⟩ := s.clock_tickWalk
  exact congrArg Clock.sweep h

theorem State.onTime.tickWalk {s : State} (h : s.onTime) : s.tickWalk.onTime := by
  obtain ⟨x, hx, onTime⟩ := s.clock_tickWalk
  rw [State.onTime, hx]
  exact Clock.lawful.setPace h x onTime

theorem State.onTime.takeOverdue {s : State} (h : s.onTime) : s.takeOverdue.onTime := by
  unfold State.takeOverdue
  split
  · exact h.tickWalk
  · exact h.tickWalk.finishSweep

/-- The sweep goes on through the overdue visits below the sixteenth tick, and is over at it (R55). -/
theorem State.takeOverdue_sweep (s : State) :
    s.takeOverdue.sweep = if s.tickCount + 1 < Config.sweepTicks then s.sweep else none := by
  unfold State.takeOverdue
  split
  · exact s.tickWalk_sweep
  · exact s.tickWalk.finishSweep_sweep

theorem State.onTime.boundaryEvent {s : State} (h : s.onTime) : s.boundaryEvent.onTime := Clock.lawful.advance h

theorem State.onTime.frameTick {s : State} (h : s.onTime) (hs : s.sweep ≠ none → s.tickCount + 1 < Config.sweepTicks) :
    s.frameTick.onTime := by
  unfold State.frameTick
  split
  · exact h.boundaryEvent
  · rename_i hn
    have below : s.tickCount + 1 < s.config.frameTicks := by simpa [State.boundaryDue] using hn
    exact Clock.lawful.raise h below hs

theorem State.onTime.tick {s : State} (h : s.onTime) : s.takeOverdue.tenureTick.frameTick.onTime := by
  have onTime : s.takeOverdue.tenureTick.onTime := h.takeOverdue.of_eq (State.clock_tenureTick _)
  have ticks : s.takeOverdue.tenureTick.tickCount = s.tickCount :=
    congrArg Steady.tickCount ((State.steady_tenureTick _).trans s.steady_takeOverdue)
  have sweep : s.takeOverdue.tenureTick.sweep = s.takeOverdue.sweep :=
    congrArg Clock.sweep (State.clock_tenureTick _)
  refine onTime.frameTick fun running => ?_
  rw [sweep, s.takeOverdue_sweep] at running
  rw [ticks]
  by_contra late
  exact running (if_neg late)

/-! ## The clock after the other commands -/

/-- A detach stops a LIST walk of the port's own, and leaves the pace of any other (R130). -/
theorem State.onTime.detachCommands {s : State} (h : s.onTime) (p : Port) : (s.detachCommands p).onTime := by
  refine Clock.lawful.setPace h (s.detachCommands p).clock.pace fun y hy => h.pace y ?_
  simp only [State.clock, State.detachCommands] at hy ⊢
  split at hy
  · exact absurd hy (by simp)
  · rename_i w hw
    rw [hw]
    split at hy
    · split at hy
      · exact absurd hy (by simp)
      · exact hy
    · exact hy

theorem State.clock_detachTenure (s : State) (p : Port) : (s.detachTenure p).clock = s.clock := by
  unfold State.detachTenure
  split
  · rfl
  · split <;> rfl

theorem State.clock_detachNotices (s : State) (p : Port) : (s.detachNotices p).clock = s.clock := by
  simp only [State.detachNotices]
  split
  · rfl
  · exact State.clock_place _ _ _ _

theorem State.clock_unbindAll (s : State) (p : Port) : (s.unbindAll p).clock = s.clock := rfl

theorem State.onTime.detachPort {s : State} (h : s.onTime) (p : Port) : (s.detachPort p).onTime := by
  have departed :
      (((((s.detachTenure p).setWaiting p none).setPortState p .detached).retireOwned p).unbindAll p).onTime :=
    h.of_eq (by simp [State.clock_unbindAll, State.clock_detachTenure])
  unfold State.detachPort
  exact (departed.detachCommands p).of_eq (by rw [State.clock_testYield, State.clock_detachNotices])

theorem reset_onTime : State.reset.onTime where
  config := by decide
  pending _ h := nomatch h
  ticks := by decide
  sweep h := absurd rfl h
  pace _ h := nomatch h

theorem State.powerOn_onTime (s : State) : s.powerOn.onTime := reset_onTime.of_eq rfl

/-- An outcome that goes on with a state that keeps the law. -/
def GoesOnWith (law : State → Prop) (o : Result) : Prop := ∃ t : State, o = .next t ∧ law t

/-- A law that no waiting command touches, and that every command keeps, every step keeps. -/
theorem step_keepsLaw {law : State → Prop} (waiting : ∀ (s : State) l, law s → law { s with pending := l })
    (command : ∀ i (s : State), law s → GoesOnWith law (exec i s)) {s t : State} (h : law s)
    (hstep : step s = .next t) : law t := by
  unfold step at hstep
  split at hstep
  · cases hstep
    exact h
  · rename_i i rest _
    obtain ⟨v, hv, hl⟩ := command i _ (waiting s rest h)
    cases hv.symm.trans hstep
    exact hl

theorem State.onTime.next {t : State} (h : t.onTime) : GoesOnWith State.onTime (.next t) := ⟨t, rfl, h⟩

theorem State.onTime.next_of_eq {s t : State} (h : s.onTime) (e : t.clock = s.clock) :
    GoesOnWith State.onTime (.next t) := (h.of_eq e).next

/-- An event that arises only under a condition, and changes nothing where it does not arise (log entry 2). -/
theorem State.onTime.unless {s t : State} (h : s.onTime) (c : Prop) [Decidable c] (ht : t.onTime) :
    GoesOnWith State.onTime (if c then .next s else .next t) := by
  split
  · exact h.next
  · exact ht.next

theorem execResetRelease_onTime (sup : Port) (wb : BitVec 4) {s : State} (h : s.onTime) :
    GoesOnWith State.onTime (execResetRelease sup wb s) := by
  unfold execResetRelease
  split
  · exact s.powerOn_onTime.next_of_eq rfl
  · exact h.next

theorem execAttach_onTime (p : Port) {s : State} (h : s.onTime) : GoesOnWith State.onTime (execAttach p s) := by
  simp only [execAttach]
  split
  · exact h.next_of_eq rfl
  · split <;> exact h.next_of_eq rfl

theorem execDetach_onTime (p : Port) {s : State} (h : s.onTime) : GoesOnWith State.onTime (execDetach p s) := by
  have level : State.onTime { s with pres := bankSet s.pres p false } := h.of_eq rfl
  simp only [execDetach]
  split
  · exact level.next
  · split
    · exact level.next
    · exact (level.detachPort p).next

theorem execRequest_onTime (p : Port) (c : SelCode) {s : State} (h : s.onTime) :
    GoesOnWith State.onTime (execRequest p c s) := by
  have level : State.onTime { s with sel := bankSet s.sel p c, req := bankSet s.req p true } := h.of_eq rfl
  simp only [execRequest]
  split
  · exact level.next
  · split
    · exact level.next_of_eq (State.clock_makeEntry _ p)
    · exact level.next

theorem execAddressStrobe_onTime (a : Address) (w : Bool) {s : State} (h : s.onTime) :
    GoesOnWith State.onTime (execAddressStrobe a w s) := by
  unfold execAddressStrobe
  split
  · exact h.next
  · split <;> exact h.next_of_eq rfl

theorem execGrantDecision_onTime {s : State} (h : s.onTime) : GoesOnWith State.onTime (execGrantDecision s) := by
  unfold execGrantDecision
  split
  · exact h.next
  · split
    · exact h.next
    · exact h.next_of_eq rfl

theorem execGraceExpiry_onTime {s : State} (h : s.onTime) : GoesOnWith State.onTime (execGraceExpiry s) := by
  unfold execGraceExpiry
  split
  · rename_i p _ _
    obtain ⟨a, b, c, d, e, eq⟩ := s.expireGrace_frame p
    exact h.next_of_eq (by rw [eq]; rfl)
  · exact h.next

theorem execDrainExpiry_onTime {s : State} (h : s.onTime) : GoesOnWith State.onTime (execDrainExpiry s) := by
  unfold execDrainExpiry
  split
  · exact h.next_of_eq rfl
  · exact h.next

theorem State.clock_idleTick (s : State) : s.idleTick.clock = s.clock := by
  obtain ⟨a, b, eq⟩ := s.idleTick_frame; rw [eq]; rfl

theorem exec_onTime (i : Instr) (s : State) (h : s.onTime) : GoesOnWith State.onTime (exec i s) := by
  have ready (is : WindowAccess → Bool) (d : Byte) : GoesOnWith State.onTime (.next (s.readyOf is d)) :=
    h.next_of_eq (s.clock_readyOf is d)
  cases i with
  | resetAssert => exact s.powerOn_onTime.next
  | resetRelease sup wb => exact execResetRelease_onTime sup wb h
  | attach p => exact execAttach_onTime p h
  | detach p => exact execDetach_onTime p h
  | request p c => exact execRequest_onTime p c h
  | withdrawal p => exact h.next_of_eq (s.clock_requestFalls p)
  | release p => exact h.next_of_eq (s.clock_requestFalls p)
  | addressStrobe a w => exact execAddressStrobe_onTime a w h
  | ready d => exact h.next_of_eq (s.clock_readyEvent d)
  | idleLimit => exact h.unless _ (h.of_eq s.clock_idleTick)
  | graceExpiry => exact execGraceExpiry_onTime h
  | drainExpiry => exact execDrainExpiry_onTime h
  | boundary => exact h.unless _ h.takeOverdue.boundaryEvent
  | sweepVisit => exact h.unless _ h.sweepStep
  | grantDecision => exact execGrantDecision_onTime h
  | trigger v => exact ready _ v
  | windowWrite v => exact ready _ v
  | portControlWrite v => exact ready _ v
  | noticeTake => exact ready _ 0
  | timeSnapshot => exact ready _ 0
  | takeBadCommand => exact (h.take _ badTake_clock.onTime).next
  | takeOpen => exact (h.take _ openTake_clock.onTime).next
  | takeModify => exact (h.take _ modifyTake_clock.onTime).next
  | takeRenew => exact (h.take _ renewTake_clock.onTime).next
  | takeClose => exact (h.take _ closeTake_clock.onTime).next
  | takeBind => exact (h.take _ bindTake_clock.onTime).next
  | takeUnbind => exact (h.take _ unbindTake_clock.onTime).next
  | takeQuery => exact (h.take _ queryTake_clock.onTime).next
  | takeList => exact (h.take _ listTake_onTime).next
  | listVisit => exact h.unless _ h.walkStep
  | takeOpenFor => exact (h.take _ openForTake_clock.onTime.supervisorOnly).next
  | takeRevoke => exact (h.take _ revokeTake_clock.onTime.supervisorOnly).next
  | takeSuspend => exact (h.take _ suspendTake_clock.onTime.supervisorOnly).next
  | takeResume => exact (h.take _ resumeTake_clock.onTime.supervisorOnly).next
  | takeDemote => exact (h.take _ demoteTake_clock.onTime.supervisorOnly).next
  | takeClearFence => exact (h.take _ clearFenceTake_clock.onTime.supervisorOnly).next
  | takeSetFrame => exact (h.take _ setFrameTake_onTime.supervisorOnly).next
  | takeResetTable => exact (h.take _ resetTableTake_onTime.supervisorOnly).next
  | resetTableVisit => exact h.unless _ h.walkStep
  | takeQueryPort => exact (h.take _ queryPortTake_clock.onTime.supervisorOnly).next
  | tick => exact h.unless _ h.tick

/-- Settles O52: every command keeps the laws of time. -/
theorem timeSweepAndWalkStayInBounds : Obligations.TimeSweepAndWalkStayInBounds := by
  intro s t hs hw hstep
  rw [← State.onTime_iff]
  exact step_keepsLaw (fun _ _ h => h) exec_onTime (s.onTime_iff.2 ⟨hs, hw⟩) hstep

end Sys2Proof.Machine

namespace Sys2Proof.Machine

/-! # TICK -/

theorem State.frameTick_outside (s : State) : s.frameTick.outside = s.outside := by
  unfold State.frameTick
  split <;> rfl

/-- Below FT the tick count rises (R49). -/
theorem State.frameTick_below (s : State) (h : s.tickCount + 1 < s.config.frameTicks) :
    s.frameTick = { s with tickCount := s.tickCount + 1 } :=
  if_neg (by simpa [State.boundaryDue] using h)

/-- At FT the boundary comes in its place (R49, R50). -/
theorem State.frameTick_boundary (s : State) (h : s.config.frameTicks ≤ s.tickCount + 1) :
    s.frameTick = s.boundaryEvent :=
  if_pos (by simpa [State.boundaryDue] using h)

/-- What a take can change and a visit cannot: the command queue, the rotation pointers, a pending configuration. -/
def State.commanded (s : State) : List Port × Vector Port 6 × Option FrameConfig :=
  (s.cmdQueue, s.pointers, s.pendingConfig)

theorem State.commanded_walkStep (s : State) : s.walkStep.commanded = s.commanded := by
  obtain ⟨a, b, c, d, e, f, g, h, i, j, eq⟩ := s.walkStep_frame; rw [eq]; rfl

theorem State.commanded_sweepStep (s : State) : s.sweepStep.commanded = s.commanded := by
  obtain ⟨a, b, c, d, e, f, g, h, i, eq⟩ := s.sweepStep_frame; rw [eq]; rfl

theorem State.commanded_tickWalk (s : State) : s.tickWalk.commanded = s.commanded := by
  unfold State.tickWalk
  split
  · rfl
  · exact State.overdueWalk_keeps (law := fun u => u.commanded = s.commanded)
      (fun u h => u.commanded_walkStep.trans h) _ _ rfl

/-- No take is due on an empty queue (R147). -/
theorem State.takeFront_of_no_queue (s : State) (h : s.cmdQueue = []) : s.takeFront = s := by
  rcases s.take_cases (fun _ => true) (fun p c => takeOf (byteAt c 0) p c) with e | ⟨p, rest, c, ⟨-, -, hq, -⟩, -⟩
  · exact e
  · rw [h] at hq; cases hq

theorem State.commanded_commandStep_of_no_queue (s : State) (h : s.cmdQueue = []) :
    s.commandStep.commanded = s.commanded := by
  unfold State.commandStep
  split
  · exact s.commanded_walkStep
  · rw [s.takeFront_of_no_queue h]

/-- On an empty queue the rest of a sweep takes visits alone. -/
theorem State.commanded_finishSweep_of_no_queue (s : State) (h : s.cmdQueue = []) :
    s.finishSweep.commanded = s.commanded := by
  refine State.finishSweep_keeps (law := fun u => u.commanded = s.commanded) (fun u hu => ?_)
    (fun u hu => u.commanded_sweepStep.trans hu) rfl
  have queue : u.cmdQueue = [] := (congrArg Prod.fst hu).trans h
  exact (u.commanded_commandStep_of_no_queue queue).trans hu

/-- The overdue events are visits alone below the sixteenth tick, with no sweep, and on an empty queue (R55, R166). -/
theorem State.commanded_takeOverdue (s : State) (h : s.tickCount + 1 < 16 ∨ s.sweep = none ∨ s.cmdQueue = []) :
    s.takeOverdue.commanded = s.commanded := by
  unfold State.takeOverdue
  split
  · exact s.commanded_tickWalk
  · rename_i late
    rcases h with early | ended | queue
    · exact absurd early late
    · rw [s.tickWalk.finishSweep_of_no_sweep (s.tickWalk_sweep.trans ended)]
      exact s.commanded_tickWalk
    · have queue' : s.tickWalk.cmdQueue = [] := (congrArg Prod.fst s.commanded_tickWalk).trans queue
      exact (s.tickWalk.commanded_finishSweep_of_no_queue queue').trans s.commanded_tickWalk

theorem State.boundaryEvent_eq (s t : State) (h : s.steady = t.steady) : s.boundaryEvent =
    { s with
      tickCount := 0, frameNumber := t.frameNumber + 1, config := s.pendingConfig.getD t.config
      pendingConfig := none, sweep := some 0, late := Vector.replicate 8 false } := by
  have number : s.frameNumber = t.frameNumber := congrArg Steady.frameNumber h
  have config : s.config = t.config := congrArg Steady.config h
  rw [← number, ← config]
  rfl

/-- Settles O21: the overdue visits and the Tenure Monitor leave the frame to the Frame Timer. -/
theorem tickCountsTheFrame : Obligations.TickCountsTheFrame := by
  intro s
  refine ⟨fun h => if_pos h, fun hrst => ⟨s.takeOverdue.tenureTick.frameTick, if_neg (by simp [hrst]), ?_⟩⟩
  have steady : s.takeOverdue.tenureTick.steady = s.steady := (State.steady_tenureTick _).trans s.steady_takeOverdue
  have ticks : s.takeOverdue.tenureTick.tickCount = s.tickCount := congrArg Steady.tickCount steady
  have config : s.takeOverdue.tenureTick.config = s.config := congrArg Steady.config steady
  obtain ⟨a, b, c, d, e, monitor⟩ := s.takeOverdue.tenureTick_frame
  have pending : s.takeOverdue.tenureTick.pendingConfig = s.takeOverdue.pendingConfig := by rw [monitor]
  have sweep : s.takeOverdue.tenureTick.sweep = if s.tickCount + 1 < 16 then s.sweep else none := by
    rw [monitor]
    exact s.takeOverdue_sweep
  refine ⟨fun below => ?_, fun reached => ?_, fun h => ?_, State.eq_of_outside ?_⟩
  · rw [State.frameTick_below _ (by rwa [ticks, config]), ticks]
    exact ⟨rfl, congrArg Steady.frameNumber steady, config, pending, congrArg Steady.late steady,
      fun h => sweep.trans (if_pos h), fun h => sweep.trans (if_neg (Nat.not_lt.2 h))⟩
  · rw [State.frameTick_boundary _ (by rwa [ticks, config]), State.boundaryEvent_eq _ s steady, pending]
  · have visits := s.commanded_takeOverdue h
    have frame : s.takeOverdue.tenureTick.frameTick.cmdQueue = s.takeOverdue.cmdQueue ∧
        s.takeOverdue.tenureTick.frameTick.pointers = s.takeOverdue.pointers := by
      rw [monitor]
      unfold State.frameTick
      split <;> exact ⟨rfl, rfl⟩
    simp only [State.commanded, Prod.mk.injEq] at visits
    exact ⟨frame.1.trans visits.1, frame.2.trans visits.2.1, visits.2.2⟩
  · exact (State.frameTick_outside _).trans (congrArg Steady.outside steady)

/-! # BOUNDARY -/

/-- The state with the walk replaced. -/
def State.setWalk (s : State) (x : Option Walk) : State := { s with walk := x }

/-! ## No event but the walk's own reads the walk -/

section
variable (s : State) (x : Option Walk)

theorem State.testYield_setWalk : (s.setWalk x).testYield = s.testYield.setWalk x := by
  rcases s.testYield_cases with ⟨t, r, ht, hm, hc, e⟩ | ⟨e, unmet⟩ <;>
    rcases (s.setWalk x).testYield_cases with ⟨t', r', ht', hm', hc', e'⟩ | ⟨e', unmet'⟩
  · cases ht.symm.trans ht'
    cases hc.symm.trans hc'
    rw [e, e']
    rfl
  · cases hc.symm.trans (unmet' t ht hm)
  · cases hc'.symm.trans (unmet t' ht' hm')
  · rw [e, e']

theorem State.raiseYield_setWalk (r : YieldReason) : (s.setWalk x).raiseYield r = (s.raiseYield r).setWalk x := by
  have same : (s.setWalk x).tenure = s.tenure := rfl
  cases ht : s.tenure with
  | none => simp only [State.raiseYield, same, ht]
  | some t =>
    simp only [State.raiseYield, same, ht]
    by_cases hm : s.mayYield t = true
    · have hm' : (s.setWalk x).mayYield t = true := hm
      rw [if_pos hm, if_pos hm']
      rfl
    · have hm' : ¬(s.setWalk x).mayYield t = true := hm
      rw [if_neg hm, if_neg hm']

theorem State.withdrawDrawing_setWalk (h : Handle) (cls : ResClass) :
    (s.setWalk x).withdrawDrawing h cls = (s.withdrawDrawing h cls).setWalk x := by
  have same : (s.setWalk x).tenure = s.tenure := rfl
  cases ht : s.tenure with
  | none => simp only [State.withdrawDrawing, same, ht]
  | some t =>
    simp only [State.withdrawDrawing, same, ht]
    split
    · cases cls with
      | fixed =>
        exact State.raiseYield_setWalk (s.setTenure (some { t with drawing := none, standing := .three })) x .withdrawn
      | elastic => rfl
    · rfl

theorem State.retireRecord_setWalk (k : Slot) : (s.setWalk x).retireRecord k = (s.retireRecord k).setWalk x := by
  cases hl : s.liveAt k with
  | none => rw [s.retireRecord_free k hl, (s.setWalk x).retireRecord_free k hl]
  | some r =>
    rw [s.retireRecord_of_live k r hl, (s.setWalk x).retireRecord_of_live k r hl,
      ← State.withdrawDrawing_setWalk]
    rfl

theorem State.retire_setWalk (k : Slot) : (s.setWalk x).retire k = (s.retire k).setWalk x := by
  rw [State.retire, s.retireRecord_setWalk x k, State.testYield_setWalk, State.retire]

theorem State.place_setWalk (p : Port) (k : NoticeKind) (y : Subject) :
    (s.setWalk x).place p k y = (s.place p k y).setWalk x := by
  have same : (s.setWalk x).port p = s.port p := rfl
  unfold State.place
  rw [same]
  split <;> rfl

theorem State.complete_setWalk (p : Port) (r : ReplyStatus) (n : Nat) (bs : List Byte) :
    (s.setWalk x).complete p r n bs = (s.complete p r n bs).setWalk x :=
  State.place_setWalk (s.setSlot p { s.slot p with state := .done, status := r, count := n, data := replyData bs })
    x p _ _

theorem State.placeTableReset_setWalk : (s.setWalk x).placeTableReset = s.placeTableReset.setWalk x := by
  unfold State.placeTableReset
  generalize allPorts = l
  induction l generalizing s with
  | nil => rfl
  | cons p l ih => rw [List.foldl_cons, List.foldl_cons, s.place_setWalk, ih]

end

/-- The state with the ticks of its walk replaced. -/
def State.setTicks (s : State) (n : Nat) : State := s.setWalk (s.walk.map fun w => { w with ticks := n })

theorem State.setTicks_of_no_walk (s : State) (n : Nat) (h : s.walk = none) : s.setTicks n = s := by
  rw [State.setTicks, h, Option.map_none, ← h]
  rfl

theorem State.setTicks_walk (s : State) (w : Walk) (n : Nat) (h : s.walk = some w) :
    (s.setTicks n).walk = some { w with ticks := n } := by
  simp [State.setTicks, State.setWalk, h]

/-- The ticks of a walk are no matter to its visits (R148). -/
theorem State.walkStep_setTicks (s : State) (n : Nat) : (s.setTicks n).walkStep = s.walkStep.setTicks n := by
  cases hw : s.walk with
  | none =>
    have still : s.walkStep = s := by simp only [State.walkStep, hw]
    rw [s.setTicks_of_no_walk n hw, still, s.setTicks_of_no_walk n hw]
  | some w =>
    have hv := s.setTicks_walk w n hw
    have retired : (s.setTicks n).retire w.next = (s.retire w.next).setWalk (some { w with ticks := n }) := by
      rw [← State.retire_setWalk, State.setTicks, hw, Option.map_some]
    have ended (u : State) (p : Port) (r : ReplyStatus) (m : Nat) (bs : List Byte) :
        (u.setWalk none).complete p r m bs = ((u.setWalk none).complete p r m bs).setTicks n := by
      rw [State.complete_setWalk]
      rfl
    simp only [State.walkStep, hv, hw]
    split
    · simp only [State.listStep]
      split
      · rfl
      · exact ended s _ _ _ _
    · simp only [State.resetTableStep, retired, State.placeTableReset_setWalk]
      split
      · rfl
      · split
        · rfl
        · generalize (s.retire w.next).placeTableReset = u
          exact ended u _ _ _ _

/-! ## One overdue visit at a time -/

/-- No visit is overdue where the walk has taken as many as its ticks, or none is in progress (R149). -/
theorem State.overdueWalk_onTime (s : State) (n fuel : Nat) (h : ∀ w, s.walk = some w → n ≤ w.next.val) :
    s.overdueWalk n fuel = s := by
  cases fuel with
  | zero => rfl
  | succ m =>
    refine if_neg fun late => ?_
    obtain ⟨w, hw, hn⟩ := Option.any_eq_true .. |>.1 late
    have := h w hw
    simp only [decide_eq_true_eq] at hn
    omega

theorem State.overdueWalk_late (s : State) (n fuel : Nat) (w : Walk) (hw : s.walk = some w) (h : w.next.val < n) :
    s.overdueWalk n (fuel + 1) = s.walkStep.overdueWalk n fuel :=
  if_pos (by simpa [hw] using h)

/-- More fuel than a walk has visits left changes nothing. -/
theorem State.overdueWalk_fuel (n a b : Nat) (s : State) (ha : ∀ w, s.walk = some w → 32 ≤ w.next.val + a)
    (hb : ∀ w, s.walk = some w → 32 ≤ w.next.val + b) : s.overdueWalk n a = s.overdueWalk n b := by
  induction a generalizing b s with
  | zero =>
    have done : ∀ w, s.walk = some w → n ≤ w.next.val := fun w hw => by have := ha w hw; omega
    rw [s.overdueWalk_onTime n 0 done, s.overdueWalk_onTime n b done]
  | succ a ih =>
    by_cases onTime : ∀ w, s.walk = some w → n ≤ w.next.val
    · rw [s.overdueWalk_onTime n _ onTime, s.overdueWalk_onTime n b onTime]
    · push Not at onTime
      obtain ⟨w, hw, late⟩ := onTime
      cases b with
      | zero => have := hb w hw; omega
      | succ b =>
        rw [s.overdueWalk_late n a w hw late, s.overdueWalk_late n b w hw late]
        refine ih b s.walkStep (fun v hv => ?_) fun v hv => ?_
        · obtain ⟨u, hu, -, next⟩ := s.walkStep_walk v hv
          have := ha u hu
          omega
        · obtain ⟨u, hu, -, next⟩ := s.walkStep_walk v hv
          have := hb u hu
          omega

theorem State.tickWalk_of_no_walk (s : State) (h : s.walk = none) : s.tickWalk = s := by
  unfold State.tickWalk; rw [h]

theorem State.tickWalk_eq (s : State) (w : Walk) (h : s.walk = some w) :
    s.tickWalk = (s.setTicks (w.ticks + 1)).overdueWalk (w.ticks + 1) 32 := by
  unfold State.tickWalk State.setTicks
  rw [h]
  rfl

/-- A walk that has taken as many visits as the tick asks for takes none (R149). -/
theorem State.tickWalk_onTime (s : State) (w : Walk) (h : s.walk = some w) (hn : w.ticks + 1 ≤ w.next.val) :
    s.tickWalk = { s with walk := some { w with ticks := w.ticks + 1 } } := by
  rw [s.tickWalk_eq w h, State.overdueWalk_onTime _ _ _ fun v hv => ?_, State.setTicks, h]
  · rfl
  · cases hv.symm.trans (s.setTicks_walk w _ h)
    exact hn

/-- A walk that has not takes a visit first. -/
theorem State.tickWalk_late (s : State) (w : Walk) (h : s.walk = some w) (hn : w.next.val < w.ticks + 1) :
    s.tickWalk = s.walkStep.tickWalk := by
  rw [s.tickWalk_eq w h, State.overdueWalk_late _ _ 31 _ (s.setTicks_walk w (w.ticks + 1) h) hn, s.walkStep_setTicks]
  cases hv : s.walkStep.walk with
  | none =>
    rw [State.setTicks_of_no_walk _ _ hv, State.tickWalk_of_no_walk _ hv]
    exact State.overdueWalk_onTime _ _ _ fun v e => by cases hv.symm.trans e
  | some v =>
    obtain ⟨w', hw', ticks, next⟩ := s.walkStep_walk v hv
    cases h.symm.trans hw'
    rw [State.tickWalk_eq _ v hv, ticks]
    refine State.overdueWalk_fuel _ 31 32 _ (fun u hu => ?_) fun u hu => ?_ <;>
      (cases hu.symm.trans (State.setTicks_walk _ v _ hv); dsimp only; omega)

theorem State.takeOverdue_early (s : State) (h : s.tickCount + 1 < 16) : s.takeOverdue = s.tickWalk := if_pos h

theorem State.takeOverdue_sixteenth (s : State) (h : 16 ≤ s.tickCount + 1) : s.takeOverdue = s.tickWalk.finishSweep :=
  if_neg (Nat.not_lt.2 h)

theorem State.takeOverdue_late (s : State) (w : Walk) (h : s.walk = some w) (hn : w.next.val < w.ticks + 1) :
    s.takeOverdue = s.walkStep.takeOverdue := by
  have ticks : s.walkStep.tickCount = s.tickCount := congrArg Steady.tickCount s.steady_walkStep
  rw [State.takeOverdue, State.takeOverdue, ticks, s.tickWalk_late w h hn]

/-! ## The event that comes next -/

/-- The visit of a walk is LIST_VISIT or RESET_TABLE_VISIT, as its kind says (R148). -/
theorem exec_visit_of_walk (s : State) (w : Walk) (hr : s.rstLow = false) (hw : s.walk = some w) :
    (∀ l st f, w.kind = .list l st f → exec .listVisit s = .next s.walkStep) ∧
      ∀ n d, w.kind = .resetTable n d → exec .resetTableVisit s = .next s.walkStep := by
  refine ⟨fun l st f hk => if_neg ?_, fun n d hk => if_neg ?_⟩
  · simp [hr, State.listing, hw, hk]
  · simp [hr, State.resetting, hw, hk]

theorem exec_sweepVisit_of_due (s : State) (k : Slot) (hr : s.rstLow = false) (hs : s.sweep = some k)
    (hw : s.renewWaits k = false) : exec .sweepVisit s = .next s.sweepStep :=
  if_neg (by simp [hr, hs, hw])

theorem exec_boundary_of_due (s : State) (hr : s.rstLow = false) (h : s.config.frameTicks ≤ s.tickCount + 1) :
    exec .boundary s = .next s.takeOverdue.boundaryEvent :=
  if_neg (by simpa [hr, State.boundaryDue] using h)

theorem exec_boundary_of_not_due (s : State) (h : s.rstLow = true ∨ s.tickCount + 1 < s.config.frameTicks) :
    exec .boundary s = .next s :=
  if_pos (by simpa [State.boundaryDue] using h)

/-- Settles O23: the boundary after the overdue events, unfolded one event at a time. -/
theorem boundaryBeginsTheNextFrame : Obligations.BoundaryBeginsTheNextFrame := by
  intro s
  refine ⟨fun hr due => ⟨_, exec_boundary_of_due s hr due, State.boundaryEvent_eq _ s s.steady_takeOverdue⟩,
    exec_boundary_of_not_due s, fun v hv => ?_,
    fun hr w hw late => ⟨s.walkStep, s.takeOverdue_late w hw late, exec_visit_of_walk s w hr hw⟩,
    s.finishSweep_of_no_sweep, fun k hr hs => ⟨fun free => ?_, fun held w hw => ?_, fun held p rest c b due => ?_⟩⟩
  · have walk : s.tickWalk = v := by
      obtain ⟨hw, rfl⟩ | ⟨w, hw, onTime, rfl⟩ := hv
      · exact v.tickWalk_of_no_walk hw
      · exact s.tickWalk_onTime w hw onTime
    rw [← walk]
    exact ⟨s.takeOverdue_early, s.takeOverdue_sixteenth⟩
  · exact ⟨s.sweepStep, s.finishSweep_sweepStep k hs free, exec_sweepVisit_of_due s k hr hs free⟩
  · have command : s.commandStep = s.walkStep := if_pos (by simp [hw])
    rw [s.finishSweep_commandStep k hs held, command]
    exact ⟨_, rfl, exec_visit_of_walk s w hr hw⟩
  · have command : s.commandStep = s.takeFront := if_neg (by simp [due.2.1])
    rw [s.finishSweep_commandStep k hs held, command]
    refine ⟨_, rfl, fun x hx hb => ?_, fun hb => exec_takeBadCommand_of_due s p rest c b hb due⟩
    subst hb
    exact exec_take_of_due s p rest c x hx due

end Sys2Proof.Machine

namespace Sys2Proof.Machine

/-! # TIME_SNAPSHOT -/

theorem lowByte_toNat (n : BitVec 16) : lowByte n.toNat = n.setWidth 8 := by
  apply BitVec.eq_of_toNat_eq
  simp [lowByte]

/-- Byte 0x3C is the low byte of the frame number in the port's snapshot (R199). -/
theorem State.windowByte_snapshot (s : State) (p : Port) :
    s.windowByte p 0x3C = (bankGet s.snapshots p).frameNumber.setWidth 8 := lowByte_toNat _

/-- The read of 0x3C copies the time first and answers from the copy (R52). -/
theorem State.windowRead_snapshot (s : State) (p : Port) :
    s.windowRead p 0x3C = { s.takeSnapshot p with driven := some (s.frameNumber.setWidth 8) } := by
  have copy : bankGet (s.takeSnapshot p).snapshots p = { frameNumber := s.frameNumber, tickCount := s.tickCount } :=
    bankGet_bankSet_self _ _ _
  have byte : (s.takeSnapshot p).windowByte p 0x3C = s.frameNumber.setWidth 8 := by
    rw [State.windowByte_snapshot, copy]
  rw [← byte]
  rfl

theorem State.readyEvent_snapshot (s : State) (c : Cycle) (rest : List Strobe) (p : Port) (h : s.completes c rest)
    (ha : c.access = some { offset := 0x3C, write := false, port := p }) (d : Byte) :
    s.readyEvent d =
      (State.charge
        { s.takeSnapshot p with driven := some (s.frameNumber.setWidth 8), pendingOrder := rest }
        c.cost).finishDrain := by
  have effect : s.windowEffect c.access d = { s.takeSnapshot p with driven := some (s.frameNumber.setWidth 8) } := by
    rw [ha]
    exact s.windowRead_snapshot p
  rw [s.readyEvent_completes c rest h, effect]

/-- Settles O13: both readies complete the read of 0x3C. -/
theorem timeSnapshotCopiesTime : Obligations.TimeSnapshotCopiesTime := by
  intro s c rest p h ha d i hi
  have named : s.readyOf (fun a => a.reads 0x3C) 0 = s.readyEvent 0 := by
    rw [s.readyOf_completes c rest h, ha]
    rfl
  simp only [List.mem_cons, List.not_mem_nil, or_false] at hi
  obtain rfl | rfl := hi
  · exact congrArg Host.Outcome.next (named.trans (s.readyEvent_snapshot c rest p h ha 0))
  · exact congrArg Host.Outcome.next (s.readyEvent_snapshot c rest p h ha d)

/-! # SWEEP_VISIT -/

/-- The record with its pending share in force (R59). -/
theorem applyPending_eq (r : Reservation) :
    applyPending r = { r with share := r.pendingShare.getD r.share, pendingShare := none } := by
  cases h : r.pendingShare with
  | none =>
    cases r
    cases h
    rfl
  | some n => simp only [applyPending, h, Option.getD_some]

/-- With no pending share the contribution is the share (R31). -/
theorem contribution_of_no_pending (r : Reservation) (h : r.pendingShare = none) : r.contribution = r.share := by
  simp [Reservation.contribution, h]

theorem State.renewWaits_iff (s : State) (k : Slot) : s.renewWaits k = true ↔
    ∃ r p c, s.liveAt k = some r ∧ r.state = .lapsed ∧ p ∈ s.cmdQueue ∧ bankGet s.late p = false ∧
      (r.owner = p ∨ p = s.supervisor) ∧ (s.slot p).captured = some c ∧ byteAt c 0 = 0x03 ∧
      handleField c = s.handleAt k := by
  simp only [State.renewWaits, Option.any_eq_true, Bool.and_eq_true, decide_eq_true_eq, List.any_eq_true,
    Bool.not_eq_true', Bool.or_eq_true]
  constructor
  · rintro ⟨r, hl, hst, p, hp, ⟨hlate, hown⟩, c, hc, hcode, hh⟩
    exact ⟨r, p, c, hl, hst, hp, hlate, hown, hc, hcode, hh⟩
  · rintro ⟨r, p, c, hl, hst, hp, hlate, hown, hc, hcode, hh⟩
    exact ⟨r, hl, hst, p, hp, ⟨hlate, hown⟩, c, hc, hcode, hh⟩

/-- No RENEW comes before the visit to a record that is not LAPSED (R166). -/
theorem State.renewWaits_of_not_lapsed (s : State) (k : Slot) (h : ∀ r, s.liveAt k = some r → r.state ≠ .lapsed) :
    s.renewWaits k = false := by
  rw [Bool.eq_false_iff, Ne, s.renewWaits_iff]
  rintro ⟨r, p, c, hl, hst, -⟩
  exact h r hl hst

/-- A visit that is due takes the slot's visit and moves the sweep to the next slot (R54). -/
theorem exec_sweepVisit (s : State) (k : Slot) (hr : s.rstLow = false) (hs : s.sweep = some k)
    (hw : s.renewWaits k = false) : exec .sweepVisit s = .next { s.visitSlot k with sweep := nextSlot k } := by
  rw [exec_sweepVisit_of_due s k hr hs hw, State.sweepStep, hs]

theorem exec_sweepVisit_of_not_due (s : State) (h : s.rstLow = true ∨ s.sweep.any s.renewWaits = true) :
    exec .sweepVisit s = .next s := if_pos h

theorem exec_sweepVisit_of_no_sweep (s : State) (h : s.sweep = none) : exec .sweepVisit s = .next s := by
  change execSweepVisit s = _
  rw [execSweepVisit, State.sweepStep, h]
  split <;> rfl

/-- The state after a visit that changes the share in force of a slot's record (R40, R59). -/
def State.visited (s : State) (k : Slot) (r r' : Reservation) : State :=
  { s with
    table := bankSet s.table k ((s.record k).holding r')
    committed := s.committed + r'.share - r.contribution
    preemptTotal := s.preemptTotal + (if r.preempt then r'.share else 0) - (if r.preempt then r.contribution else 0) }

theorem State.replaceContribution_visited (s : State) (k : Slot) (r r1 r' : Reservation) (hp : r1.pendingShare = none)
    (hpre : r1.preempt = r.preempt) (hs : r'.share = r1.share) :
    (s.replaceContribution r r1).setLive k r' = s.visited k r r' := by
  simp only [State.replaceContribution, State.visited, State.setLive, State.setRecord, preemptPart,
    contribution_of_no_pending r1 hp, hpre, hs]
  rfl

theorem State.visitSlot_suspended (s : State) (k : Slot) (r : Reservation) (hl : s.liveAt k = some r)
    (hst : r.state = .suspended) : s.visitSlot k = State.testYield
      (s.visited k r { r with share := r.pendingShare.getD r.share, pendingShare := none, credit := 0 }) := by
  have visit : s.visitSlot k = s.visitSuspended k r := by simp only [State.visitSlot, hl, hst]
  rw [visit, State.visitSuspended, applyPending_eq]
  exact congrArg State.testYield (s.replaceContribution_visited k r _ _ rfl rfl rfl)

theorem State.visitSlot_lapsed (s : State) (k : Slot) (r : Reservation) (hl : s.liveAt k = some r)
    (hst : r.state = .lapsed) : s.visitSlot k = s.visitLapsed k r := by simp only [State.visitSlot, hl, hst]

theorem State.visitSlot_active (s : State) (k : Slot) (r : Reservation) (hl : s.liveAt k = some r)
    (hst : r.state = .active) : s.visitSlot k = s.visitActive k r := by simp only [State.visitSlot, hl, hst]

/-- Settles O27: the visit to a FREE slot, to a SUSPENDED record and to a LAPSED one. -/
theorem sweepVisitPassesFreezesOrRetires : Obligations.SweepVisitPassesFreezesOrRetires := by
  intro s
  refine ⟨fun h => ?_, s.renewWaits_iff, fun k hs held => ?_, fun k hr hs next hlast hnext => ?_⟩
  · exact h.elim (fun low => exec_sweepVisit_of_not_due s (.inl low)) (exec_sweepVisit_of_no_sweep s)
  · exact exec_sweepVisit_of_not_due s (.inr (by simp [hs, held]))
  · have moved : nextSlot k = next := (nextSlot_iff k next).2 ⟨hlast, hnext⟩
    refine ⟨fun free => ?_, fun r hl hst => ?_, fun r hl hst hw => ?_⟩
    · rw [exec_sweepVisit s k hr hs (s.renewWaits_of_not_lapsed k (by simp [free])), moved, State.visitSlot, free]
    · rw [exec_sweepVisit s k hr hs (s.renewWaits_of_not_lapsed k (by simp [hl, hst])), moved,
        s.visitSlot_suspended k r hl hst]
      rfl
    · rw [exec_sweepVisit s k hr hs hw, moved, s.visitSlot_lapsed k r hl hst]
      rfl

/-! ## The visit to an ACTIVE record -/

theorem Rank.tier?_isSome (x : Rank) : x.tier?.isSome = true ↔ x ≠ .held := by
  cases x <;> simp [Rank.tier?]

theorem State.shortfallMet_iff (s : State) (h : Handle) (r : Reservation) (hst : r.state = .active) :
    s.shortfallMet h r = true ↔
      0 < r.credit ∧ ∃ e, bankGet s.waiting r.owner = some e ∧ e.handle = some h ∧ s.entryRank e ≠ .held := by
  simp only [State.shortfallMet, hst, decide_true, Bool.true_and, Bool.and_eq_true, decide_eq_true_eq,
    Option.any_eq_true, Rank.tier?_isSome]

/-- The lease notice of a visit that leaves this much of a lease (R62). -/
def leaseNotice (leaseLength remaining : Nat) : Option NoticeKind :=
  if leaseLength = 0 then none
  else if remaining = 0 then some .lapsed
  else if remaining = 1 then some .leaseLow
  else none

/-- The lease that a visit leaves (R62). -/
def leaseLeft (r : Reservation) : Nat := if r.leaseLength = 0 then r.leaseRemaining else r.leaseRemaining - 1

/-- The count of a refilled ACTIVE record by the notice it brings: with LAPSED the credit is 0, else the refill is kept
(R62). -/
theorem countLease_eq (r : Reservation) (hst : r.state = .active) (n : Option NoticeKind)
    (hn : n = leaseNotice r.leaseLength (leaseLeft r)) :
    countLease r =
      ({ r with
          leaseRemaining := leaseLeft r
          state := if n = some .lapsed then .lapsed else .active
          credit := if n = some .lapsed then 0 else r.credit }, n) := by
  subst hn
  by_cases permanent : r.leaseLength = 0
  · have count : countLease r = (r, none) := if_pos permanent
    have notice : leaseNotice r.leaseLength (leaseLeft r) = none := if_pos permanent
    have left : leaseLeft r = r.leaseRemaining := if_pos permanent
    rw [count, notice, left, if_neg nofun, if_neg nofun, ← hst]
  · have left : leaseLeft r = r.leaseRemaining - 1 := if_neg permanent
    rw [left]
    by_cases ends : r.leaseRemaining ≤ 1
    · have gone : r.leaseRemaining - 1 = 0 := by omega
      simp [countLease, leaseNotice, permanent, ends, gone]
    · by_cases low : r.leaseRemaining = 2
      · simp [countLease, leaseNotice, permanent, low, hst]
      · have more : r.leaseRemaining - 1 ≠ 0 ∧ r.leaseRemaining - 1 ≠ 1 := by omega
        simp [countLease, leaseNotice, permanent, ends, low, more, hst]

/-- An ACTIVE record at a visit before its refill: the shortfall counted, the pending share in force (R57, R59). -/
def Reservation.applied (r : Reservation) (short : Bool) : Reservation :=
  { r with
    share := r.pendingShare.getD r.share, pendingShare := none
    shortfall := if short then min 255 (r.shortfall + 1) else r.shortfall }

theorem applyPending_short (r : Reservation) (short : Bool) :
    applyPending (if short then { r with shortfall := min 255 (r.shortfall + 1) } else r) = r.applied short := by
  rw [applyPending_eq]
  cases short <;> rfl

/-- The record that a visit leaves of an ACTIVE one, by the lease notice it brings (R61, R62). -/
def Reservation.refilled (r : Reservation) (short : Bool) (notice : Option NoticeKind) : Reservation :=
  { r.applied short with
    leaseRemaining := leaseLeft r
    state := if notice = some .lapsed then .lapsed else .active
    credit := if notice = some .lapsed then 0 else (r.applied short).share }

theorem countLease_applied (r : Reservation) (hst : r.state = .active) (short : Bool) (notice : Option NoticeKind)
    (hn : notice = leaseNotice r.leaseLength (leaseLeft r)) :
    countLease { r.applied short with credit := (r.applied short).share } = (r.refilled short notice, notice) :=
  countLease_eq { r.applied short with credit := (r.applied short).share } hst notice hn

theorem Reservation.refilled_lapsed (r : Reservation) (short : Bool) (notice : Option NoticeKind) :
    (r.refilled short notice).state = .lapsed ↔ notice = some .lapsed := by
  by_cases h : notice = some .lapsed <;> simp [Reservation.refilled, h]

/-- A placement reads the ports and the notice sets alone, and writes the notice sets alone (R189). -/
theorem State.placeIf_eq (s t : State) (hp : t.ports = s.ports) (hn : t.notices = s.notices) (p : Port)
    (k : Option NoticeKind) (x : Subject) : t.placeIf p k x = { t with notices := (s.placeIf p k x).notices } := by
  cases k with
  | none => exact congrArg (fun n => ({ t with notices := n } : State)) hn
  | some k =>
    have port : t.port p = s.port p := congrArg (bankGet · p) hp
    simp only [State.placeIf, State.place, port]
    split
    · rw [← hn]
    · simp only [State.setNotices, hn]

theorem State.placeIf_ports (s : State) (p : Port) (k : Option NoticeKind) (x : Subject) :
    (s.placeIf p k x).ports = s.ports := by
  obtain ⟨a, h⟩ := s.placeIf_frame p k x; rw [h]

theorem State.placeIf_placeIf_eq (s t : State) (hp : t.ports = s.ports) (hn : t.notices = s.notices) (p : Port)
    (k l : Option NoticeKind) (x : Subject) : (t.placeIf p k x).placeIf p l x =
      { t with notices := ((s.placeIf p k x).placeIf p l x).notices } := by
  rw [s.placeIf_eq t hp hn]
  exact (s.placeIf p k x).placeIf_eq { t with notices := (s.placeIf p k x).notices }
    (hp.trans (s.placeIf_ports p k x).symm) rfl p l x

/-- The state of a visit to an ACTIVE record once the record, the account and the notices are written, before the tenure
that draws on it is told (R56, R63). -/
def State.refilledAt (s : State) (k : Slot) (r : Reservation) (short : Bool) (notice : Option NoticeKind) : State :=
  { s.visited k r (r.refilled short notice) with
    notices := ((s.placeIf r.owner notice (.handle (s.handleAt k))).placeIf r.owner
      (if short then some .shortfall else none) (.handle (s.handleAt k))).notices }

theorem State.visitActive_eq (s : State) (k : Slot) (r : Reservation) (hst : r.state = .active) (short : Bool)
    (notice : Option NoticeKind) (hs : s.shortfallMet (s.handleAt k) r = short)
    (hn : notice = leaseNotice r.leaseLength (leaseLeft r)) :
    s.visitActive k r = State.testYield
      (if notice = some .lapsed then (s.refilledAt k r short notice).withdrawDrawing (s.handleAt k) r.cls
        else (s.refilledAt k r short notice).refillStanding (s.handleAt k) r.cls) := by
  have written : (s.replaceContribution r (r.applied short)).setLive k (r.refilled short notice) =
      s.visited k r (r.refilled short notice) := s.replaceContribution_visited k r _ _ rfl rfl rfl
  have told := s.placeIf_placeIf_eq (s.visited k r (r.refilled short notice)) rfl rfl r.owner notice
    (if short then some .shortfall else none) (.handle (s.handleAt k))
  simp only [State.visitActive, hs, applyPending_short, countLease_applied r hst short notice hn, written, told,
    r.refilled_lapsed]
  rfl

/-- Settles O28: the visit to an ACTIVE record. -/
theorem sweepVisitRefillsAndCountsLease : Obligations.SweepVisitRefillsAndCountsLease := by
  intro s k r hr hs hl hst next short share remaining notice u hlast hnext hshort hshare hremaining hnotice hu
  have moved : nextSlot k = next := (nextSlot_iff k next).2 ⟨hlast, hnext⟩
  have met : s.shortfallMet (s.handleAt k) r = short :=
    Bool.eq_iff_iff.2 ((s.shortfallMet_iff _ r hst).trans hshort.symm)
  subst hshare hremaining
  have written : u = s.refilledAt k r short notice := hu
  rw [exec_sweepVisit s k hr hs (s.renewWaits_of_not_lapsed k (by simp [hl, hst])), moved,
    s.visitSlot_active k r hl hst, s.visitActive_eq k r hst short notice met hnotice, written]
  rfl

end Sys2Proof.Machine

namespace Sys2Proof.Machine

/-! # Requests -/

/-- Settles O6: the two guards of a rise, then the sampled code read back from SELn. -/
theorem requestInIdleMakesEntry : Obligations.RequestInIdleMakesEntry := by
  intro p c s
  constructor
  · rintro ⟨high, low, idle⟩
    have rise : ¬(s.rstLow = true ∨ bankGet s.req p = true) := by simp [high, low]
    simp only [exec, execRequest, if_neg rise, if_pos idle, State.makeEntry, bankGet_bankSet_self]
    rfl
  · intro h
    simp only [exec, execRequest]
    split
    · rfl
    · rename_i rise
      rw [if_neg (by tauto)]

/-- A release of the holder with its list empty ends the tenure (R111). -/
theorem State.releaseBus_of_empty (s : State) (t : Tenure) (p : Port) (ht : s.tenure = some t) (hp : t.holder = p)
    (hl : s.cycles = []) : s.releaseBus p = s.endTenure p .idle := by
  simp [State.releaseBus, ht, hp, hl]

/-- A release of the holder with a cycle outstanding begins the drain, timed by tenure G or by G in force (R111, R113). -/
theorem State.releaseBus_of_outstanding (s : State) (t : Tenure) (p : Port) (ht : s.tenure = some t) (hp : t.holder = p)
    (hl : s.cycles ≠ []) : s.releaseBus p =
      (s.setTenure (some
        { t with
          graceRemaining := none
          tenureG := some (t.tenureG.getD s.config.grace)
          drainRemaining := some (t.tenureG.getD s.config.grace) })).setPortState p .draining := by
  simp [State.releaseBus, ht, hp, hl]

/-- With RST# high, a fall in WAITING withdraws the entry (R80). -/
theorem State.requestFalls_waiting (s : State) (p : Port) (hr : s.rstLow = false) (h : (s.port p).state = .waiting) :
    s.requestFalls p =
      ((State.setWaiting { s with req := bankSet s.req p false } p none).setPortState p .idle).testYield := by
  simp [State.requestFalls, hr, h]

/-- With RST# high, a fall in GRANTED or YIELDING releases the bus (R111). -/
theorem State.requestFalls_holding (s : State) (p : Port) (hr : s.rstLow = false)
    (h : (s.port p).state = .granted ∨ (s.port p).state = .yielding) :
    s.requestFalls p = State.releaseBus { s with req := bankSet s.req p false } p := by
  obtain h | h := h <;> simp [State.requestFalls, hr, h]

/-- A fall that is not read, or that finds the port in another state, moves the level alone (R125, R134). -/
theorem State.requestFalls_level (s : State) (p : Port)
    (h : s.rstLow = true ∨ (s.port p).state ∈ [PortState.detached, .idle, .draining, .fenced]) :
    s.requestFalls p = { s with req := bankSet s.req p false } := by
  simp only [State.requestFalls]
  split
  · rfl
  · rename_i high
    have other := h.resolve_left high
    split <;> simp_all

/-- Settles O7: WITHDRAWAL and RELEASE are the same fall, taken by the state of the port. -/
theorem requestFallWithdrawsOrReleases : Obligations.RequestFallWithdrawsOrReleases := by
  intro p s i hi
  have run : exec i s = .next (s.requestFalls p) := by
    simp only [List.mem_cons, List.not_mem_nil, or_false] at hi
    obtain rfl | rfl := hi <;> rfl
  rw [run]
  refine ⟨fun ⟨hr, hw⟩ => ?_, fun t hr hst ht hp hl => ?_, fun t hr hst ht hp hl => ?_, fun h => ?_⟩
  · rw [s.requestFalls_waiting p hr hw]
    rfl
  · rw [s.requestFalls_holding p hr hst, State.releaseBus_of_empty { s with req := bankSet s.req p false } t p ht hp hl]
    rfl
  · rw [s.requestFalls_holding p hr hst,
      State.releaseBus_of_outstanding { s with req := bankSet s.req p false } t p ht hp hl]
    rfl
  · rw [s.requestFalls_level p h]

/-! # Bindings -/

/-- Settles O41: the code, the handle and its owner are checked in this order, then the code is bound. -/
theorem bindNamesTheIssuersOwnReservation : Obligations.BindNamesTheIssuersOwnReservation := by
  intro s p rest c due
  have run : exec .takeBind s = .next (bindTake p c { s with cmdQueue := rest }) := exec_of_take s p rest c _ due bindTake
  have fresh : State.fresh { s with cmdQueue := rest } (handleField c) = s.fresh (handleField c) := rfl
  rw [run]
  refine ⟨fun bad => ?_, fun code hcode => ⟨fun stale => ?_, fun r live => ⟨fun other => ?_, fun own => ?_⟩⟩⟩
  · simp only [bindTake, selField_none c bad]
  · simp only [bindTake, selField_some c code hcode, fresh, stale]
  · simp only [bindTake, selField_some c code hcode, fresh, live, if_pos other]
  · simp only [bindTake, selField_some c code hcode, fresh, live, own, ne_eq, not_true_eq_false, if_false]
    rfl

/-- Settles O42: the code is checked, then unbound whatever it held. -/
theorem unbindFreesOneCode : Obligations.UnbindFreesOneCode := by
  intro s p rest c due
  have run : exec .takeUnbind s = .next (unbindTake p c { s with cmdQueue := rest }) :=
    exec_of_take s p rest c _ due unbindTake
  have held (code : SelCode) : State.binding { s with cmdQueue := rest } p code = s.binding p code := rfl
  rw [run]
  refine ⟨fun bad => ?_, fun code hcode => ⟨fun unbound => ?_, fun h bound => ?_⟩⟩
  · simp only [unbindTake, selField_none c bad]
  · simp only [unbindTake, selField_some c code hcode, held, unbound]
    rfl
  · simp only [unbindTake, selField_some c code hcode, held, bound]
    rfl

/-! # Ranks -/

theorem State.entryRank_of_fresh (s : State) (h : Handle) (r : Reservation) (hf : s.fresh h = some r) :
    s.entryRank { handle := some h } = r.rank := by
  simp only [State.entryRank, hf]

/-- An ACTIVE record with credit ranks in tier 1 or 2 (R83). -/
theorem Reservation.rank_of_credit (r : Reservation) (ha : r.state = .active) (hc : 0 < r.credit) :
    r.rank = if r.cls = .fixed ∧ r.preempt = true then .tier1 else .tier2 r.priority :=
  if_pos ⟨ha, hc⟩

/-- Any other record ranks in tier 3 or is held, by its class (R83). -/
theorem Reservation.rank_of_no_credit (r : Reservation) (h : r.state ≠ .active ∨ r.credit = 0) :
    r.rank = match r.cls with
      | .elastic => .tier3
      | .fixed => .held :=
  if_neg (by rintro ⟨ha, hc⟩; exact h.elim (· ha) fun h0 => by omega)

/-- A sound record with preempt yes is FIXED (R3). -/
theorem Reservation.sound.preempt_fixed {r : Reservation} (h : r.sound) (hp : r.preempt = true) : r.cls = .fixed := by
  obtain ⟨-, -, -, fixed, -⟩ := h
  exact (fixed hp).1

theorem Rank.group?_eq_none (x : Rank) : x.group? = none ↔ x = .held := by cases x <;> simp [Rank.group?]

theorem Rank.tier?_eq_none (x : Rank) : x.tier? = none ↔ x = .held := by cases x <;> simp [Rank.tier?]

/-- Settles O17: the rank of the record that the handle names, by its credit, its class and preempt. -/
theorem rankOfWaitingEntry : Obligations.RankOfWaitingEntry := by
  intro s
  refine ⟨rfl, fun h r hf hcls hp ha hc => ?_, fun h r hf hcls ha hc => ?_, fun h r hf hcls hn => ?_,
    fun h r hf hcls hn => ?_, fun r hr hcls => ?_, fun x => ⟨x.group?_eq_none, x.tier?_eq_none⟩, rfl, rfl, rfl, rfl,
    fun _ => rfl, rfl, rfl, rfl, fun _ => rfl, rfl, rfl⟩
  · rw [s.entryRank_of_fresh h r hf, r.rank_of_credit ha hc, if_pos ⟨hcls, hp⟩]
  · rw [s.entryRank_of_fresh h r hf, r.rank_of_credit ha hc, if_neg]
    rintro ⟨fixed, yes⟩
    obtain ⟨-, no⟩ | elastic := hcls
    · exact absurd (yes.symm.trans no) (by decide)
    · exact absurd (fixed.symm.trans elastic) (by decide)
  · rw [s.entryRank_of_fresh h r hf, r.rank_of_no_credit hn, hcls]
  · rw [s.entryRank_of_fresh h r hf, r.rank_of_no_credit hn, hcls]
  · by_contra hp
    exact absurd (hcls.symm.trans (hr.preempt_fixed (by simpa using hp))) (by decide)

/-! # The grant decision -/

/-- A port's place in a search that begins after a pointer (R88). -/
theorem mem_searchOrder_split (p q : Port) :
    ∃ l m, searchOrder p = l ++ q :: m ∧ ∀ x ∈ l, x - p - 1 < q - p - 1 := by
  have place : ∀ i : Port, p + 1 + i - p - 1 = i := fun i => by abel
  obtain ⟨a, b, ports⟩ := List.append_of_mem (List.mem_finRange (q - p - 1))
  have ascending : (a ++ (q - p - 1) :: b).Pairwise (· < ·) := ports ▸ List.pairwise_lt_finRange 8
  refine ⟨a.map fun i => p + 1 + i, b.map fun i => p + 1 + i, ?_, fun x hx => ?_⟩
  · have last : p + 1 + (q - p - 1) = q := by abel
    rw [searchOrder, allPorts, ports, List.map_append, List.map_cons, last]
  · obtain ⟨i, hi, rfl⟩ := List.mem_map.1 hx
    rw [place]
    exact (List.pairwise_append.1 ascending).2.2 i hi _ (by simp)

/-- The winner of a group: eligible in it, and no later in the search than any other (R88). -/
theorem State.groupWinner_eq_some (s : State) (g : Group) (p : Port) (hp : s.groupOf p = some g)
    (first : ∀ q, s.groupOf q = some g → p - bankGet s.pointers g - 1 ≤ q - bankGet s.pointers g - 1) :
    s.groupWinner g = some p := by
  obtain ⟨l, m, order, before⟩ := mem_searchOrder_split (bankGet s.pointers g) p
  rw [State.groupWinner, order, List.find?_eq_some_iff_append]
  refine ⟨decide_eq_true hp, l, m, rfl, fun x hx => ?_⟩
  have later : s.groupOf x ≠ some g := fun hxg => absurd (before x hx) (not_lt.2 (first x hxg))
  simpa [State.groupOf] using later

/-- A group without a winner holds no eligible entry (R87). -/
theorem State.groupWinner_eq_none (s : State) (g : Group) : s.groupWinner g = none ↔ ∀ q, s.groupOf q ≠ some g := by
  have all : ∀ q, q ∈ searchOrder (bankGet s.pointers g) := fun q => by
    obtain ⟨l, m, order, -⟩ := mem_searchOrder_split (bankGet s.pointers g) q
    simp [order]
  simp only [State.groupWinner, List.find?_eq_none, decide_eq_true_eq]
  exact ⟨fun h q => h q (all q), fun h q _ => h q⟩

theorem State.groupOf_of_groupWinner (s : State) (g : Group) (p : Port) (h : s.groupWinner g = some p) :
    s.groupOf p = some g := by
  simpa [State.groupOf] using List.find?_some h

/-- The decision falls on the winner of a group exactly when no group before it holds an eligible entry (R87). -/
theorem State.decision_eq_some (s : State) (g : Group) (p : Port) :
    s.decision = some (g, p) ↔ s.groupWinner g = some p ∧ ∀ q g', s.groupOf q = some g' → g ≤ g' := by
  have ascending : (List.finRange 6).Pairwise (· < ·) := List.pairwise_lt_finRange 6
  rw [State.decision, List.findSome?_eq_some_iff]
  constructor
  · rintro ⟨l, a, m, groups, found, none⟩
    obtain ⟨w, hw, e⟩ := Option.map_eq_some_iff.1 found
    cases e
    refine ⟨hw, fun q g' hq => ?_⟩
    by_contra hlt
    have earlier : g' ∈ l := by
      have mem : g' ∈ l ++ g :: m := groups ▸ List.mem_finRange g'
      rw [groups, List.pairwise_append, List.pairwise_cons] at ascending
      obtain hl | rfl | hm := (List.mem_append.1 mem).imp_right List.mem_cons.1
      · exact hl
      · exact absurd le_rfl hlt
      · exact absurd (ascending.2.1.1 g' hm).le hlt
    have empty := none g' earlier
    rw [Option.map_eq_none_iff, s.groupWinner_eq_none] at empty
    exact empty q hq
  · rintro ⟨hw, first⟩
    obtain ⟨l, m, groups⟩ := List.append_of_mem (List.mem_finRange g)
    rw [groups, List.pairwise_append] at ascending
    refine ⟨l, g, m, groups, by simp [hw], fun g' hg' => ?_⟩
    rw [Option.map_eq_none_iff, s.groupWinner_eq_none]
    exact fun q hq => absurd (first q g' hq) (not_le.2 (ascending.2.2 g' hg' g (by simp)))

/-- With no eligible entry there is no decision (R91). -/
theorem State.decision_eq_none (s : State) (h : ∀ q, s.groupOf q = none) : s.decision = none := by
  rw [State.decision, List.findSome?_eq_none_iff]
  intro g _
  rw [Option.map_eq_none_iff, s.groupWinner_eq_none]
  exact fun q => by simp [h q]

/-- A group's tier (R83, R87). -/
def tierOf (g : Group) : Tier := if g = 0 then .one else if g = 5 then .three else .two

/-- A rank competes at the tier of its group (R83). -/
theorem Rank.tier?_eq (x : Rank) : x.tier? = x.group?.map tierOf := by
  cases x with
  | tier2 n => revert n; decide
  | _ => rfl

theorem State.competitorTier_eq (s : State) (p : Port) : s.competitorTier p = (s.groupOf p).map tierOf := by
  simp only [State.competitorTier, State.groupOf]
  cases s.portRank p with
  | none => rfl
  | some x => exact x.tier?_eq

theorem State.busFree_iff (s : State) : s.busFree = true ↔ ∀ q, (s.port q).state.holdsBus = false := by
  simp [State.busFree, allPorts]

/-- A granted entry's handle is drawn on if its record is ACTIVE (R91). -/
theorem State.grantDrawing_eq (s : State) (p : Port) : s.grantDrawing p =
    ((bankGet s.waiting p).bind (·.handle)).filter fun h => (s.fresh h).any fun r => decide (r.state = .active) := by
  unfold State.grantDrawing
  split
  · rename_i h; rw [h]; rfl
  · rename_i h; rw [h]; rfl

/-- A decision is made on a free bus with RST# high (R86). -/
theorem exec_grantDecision_of_free (s : State) (hr : s.rstLow = false) (hf : ∀ q, (s.port q).state.holdsBus = false) :
    exec .grantDecision s = match s.decision with
      | none => .next s
      | some (g, p) => .next (s.grant g p) :=
  if_neg (by simp [hr, s.busFree_iff.2 hf])

/-- Settles O20: the decision falls on the first port of the first group, whose tier is the standing. -/
theorem grantDecisionGrantsTheWinner : Obligations.GrantDecisionGrantsTheWinner := by
  intro s
  refine ⟨fun h => ?_, fun g p hr hf hp firstGroup firstPort => ?_⟩
  · by_cases due : s.rstLow = true ∨ s.busFree = false
    · exact if_pos due
    · simp only [not_or, Bool.not_eq_true, Bool.not_eq_false] at due
      obtain ⟨hr, hf⟩ := due
      have free := s.busFree_iff.1 hf
      have none : s.decision = none := by
        obtain low | ⟨q, hq⟩ | none := h
        · exact absurd (hr.symm.trans low) (by decide)
        · exact absurd ((free q).symm.trans hq) (by decide)
        · exact s.decision_eq_none none
      rw [exec_grantDecision_of_free s hr free, none]
  · have won : s.decision = some (g, p) :=
      (s.decision_eq_some g p).2 ⟨s.groupWinner_eq_some g p hp firstPort, firstGroup⟩
    have standing : s.competitorTier p = some (tierOf g) := by rw [s.competitorTier_eq, hp]; rfl
    rw [exec_grantDecision_of_free s hr hf, won]
    simp only [State.grant, s.grantDrawing_eq, standing]
    rfl

end Sys2Proof.Machine

namespace Sys2Proof.Machine

/-! # The bus

What the laws of R77, R86, R96 and R124 read of a state is its `State.bus` and the tenure's list of cycles. Every event
moves one port at a time: `Bus.move` between states that do not hold the bus, `Bus.hold` into or within those that do,
and `Bus.release` at the end of a tenure. -/

/-- What the laws of the bus read of a tenure: its holder, and which of its registers are present (R96, R110, R111). -/
structure Turn where
  holder : Port
  asked : Bool
  timed : Bool
  graced : Bool
  drained : Bool

def Tenure.turn (t : Tenure) : Turn where
  holder := t.holder
  asked := t.yield.isSome
  timed := t.tenureG.isSome
  graced := t.graceRemaining.isSome
  drained := t.drainRemaining.isSome

/-- What the laws of the bus read of a state, but for the list of cycles. -/
@[ext] structure Bus where
  states : Port → PortState
  waits : Port → Bool
  supervisor : Port
  turn : Option Turn

def State.bus (s : State) : Bus where
  states p := (s.port p).state
  waits p := (bankGet s.waiting p).isSome
  supervisor := s.supervisor
  turn := s.tenure.map Tenure.turn

/-- The registers of the tenure are as the state of its holder and the list of cycles require (R96, R110, R111). -/
def Turn.fits (x : Turn) (state : PortState) (l : List Cycle) : Prop :=
  match state with
  | .granted => x.asked = false ∧ x.timed = false ∧ x.graced = false ∧ x.drained = false
  | .yielding => x.asked = true ∧ x.timed = true ∧ x.graced = true ∧ x.drained = false
  | .draining => x.timed = true ∧ x.graced = false ∧ x.drained = true ∧ l ≠ []
  | _ => False

theorem Turn.fits.holdsBus {x : Turn} {state : PortState} {l : List Cycle} (h : x.fits state l) :
    state.holdsBus = true := by
  cases state with
  | granted | yielding | draining => rfl
  | detached | idle | waiting | fenced => exact h.elim

/-- The list bears on a DRAINING holder alone, which has a cycle outstanding. -/
theorem Turn.fits.of_list {x : Turn} {state : PortState} {l l' : List Cycle} (h : x.fits state l)
    (hl : state = .draining → l' ≠ []) : x.fits state l' := by
  cases state with
  | draining =>
    obtain ⟨timed, graced, drained, -⟩ := h
    exact ⟨timed, graced, drained, hl rfl⟩
  | granted | yielding => exact h
  | detached | idle | waiting | fenced => exact h.elim

theorem State.tenureShape_iff (s : State) (t : Tenure) :
    s.tenureShape t ↔ t.turn.fits (s.port t.holder).state s.cycles := by
  unfold State.tenureShape Turn.fits
  cases (s.port t.holder).state <;> simp [Tenure.turn, Option.ne_none_iff_isSome]

/-- A holder's list holds at most two cycles, of cost 1 or 2 and with window marks of the holder; there is none without a
tenure (R98, R140). -/
structure Listed (holder : Option Port) (l : List Cycle) : Prop where
  few : l.length ≤ 2
  costs : ∀ c ∈ l, c.cost = 1 ∨ c.cost = 2
  idle : holder = none → l = []
  marks : ∀ c ∈ l, ∀ a, c.access = some a → holder = some a.port

theorem Listed.nil (holder : Option Port) : Listed holder [] := ⟨by simp, by simp, fun _ => rfl, by simp⟩

theorem Listed.tail {holder : Option Port} {c : Cycle} {l : List Cycle} (h : Listed holder (c :: l)) : Listed holder l :=
  ⟨by have := h.few; simp at this; omega, fun d hd => h.costs d (by simp [hd]), fun e => absurd (h.idle e) (by simp),
    fun d hd => h.marks d (by simp [hd])⟩

theorem Listed.push {p : Port} {l : List Cycle} (h : Listed (some p) l) (c : Cycle) (few : l.length < 2)
    (cost : c.cost = 1 ∨ c.cost = 2) (mark : ∀ a, c.access = some a → a.port = p) : Listed (some p) (l ++ [c]) := by
  refine ⟨by simp; omega, fun d hd => ?_, nofun, fun d hd a ha => ?_⟩ <;>
    obtain hd | rfl := by simpa using hd
  · exact h.costs d hd
  · exact cost
  · exact h.marks d hd a ha
  · rw [mark a ha]

namespace Bus

/-- The holder of the tenure in progress (R96). -/
def holder (b : Bus) : Option Port := b.turn.map (·.holder)

/-- The laws of the bus and of the waiting entries, with this list of cycles. -/
structure sound (b : Bus) (l : List Cycle) : Prop where
  holds : ∀ p, (b.states p).holdsBus = true ↔ b.holder = some p
  fits : ∀ x, b.turn = some x → x.fits (b.states x.holder) l
  listed : Listed b.holder l
  fenced : ∀ p, b.states p = .fenced → p ≠ b.supervisor
  waiting : ∀ p, b.waits p = true ↔ b.states p = .waiting

/-- A port moves to a state in which it has an entry exactly when that state is WAITING. -/
def move (b : Bus) (p : Port) (x : PortState) : Bus :=
  { b with states := Function.update b.states p x, waits := Function.update b.waits p (decide (x = .waiting)) }

/-- The port of this turn holds the bus in this state. -/
def hold (b : Bus) (x : PortState) (y : Turn) : Bus :=
  { b with states := Function.update b.states y.holder x, turn := some y }

/-- The tenure of a port ends, and leaves it in this state. -/
def release (b : Bus) (p : Port) (x : PortState) : Bus :=
  { b with states := Function.update b.states p x, turn := none }

section
variable (b : Bus) (p q : Port) (x : PortState) (y : Turn)

@[simp] theorem states_move : (b.move p x).states q = if q = p then x else b.states q := Function.update_apply _ _ _ _
@[simp] theorem waits_move : (b.move p x).waits q = if q = p then decide (x = .waiting) else b.waits q :=
  Function.update_apply _ _ _ _
@[simp] theorem holder_move : (b.move p x).holder = b.holder := rfl
@[simp] theorem turn_move : (b.move p x).turn = b.turn := rfl
@[simp] theorem states_hold : (b.hold x y).states q = if q = y.holder then x else b.states q :=
  Function.update_apply _ _ _ _
@[simp] theorem waits_hold : (b.hold x y).waits = b.waits := rfl
@[simp] theorem holder_hold : (b.hold x y).holder = some y.holder := rfl
@[simp] theorem states_release : (b.release p x).states q = if q = p then x else b.states q :=
  Function.update_apply _ _ _ _
@[simp] theorem waits_release : (b.release p x).waits = b.waits := rfl
@[simp] theorem holder_release : (b.release p x).holder = none := rfl

end

variable {b : Bus} {l : List Cycle} {p : Port} {x : PortState}

/-- A port that holds the bus has no entry. -/
theorem sound.not_waiting (h : b.sound l) (hp : b.holder = some p) : b.waits p = false := by
  have holds := (h.holds p).2 hp
  by_contra hw
  rw [(h.waiting p).1 (by simpa using hw)] at holds
  cases holds

theorem sound.no_cycles (h : b.sound l) (hp : b.holder = none) : l = [] := h.listed.idle hp

/-- A port that is not the holder moves between states that do not hold the bus. -/
theorem sound.move (h : b.sound l) (hp : b.holder ≠ some p) (hx : x.holdsBus = false)
    (hf : x = .fenced → p ≠ b.supervisor) : (b.move p x).sound l where
  holds q := by
    by_cases hq : q = p
    · subst hq; simp [hx, hp]
    · simpa [hq] using h.holds q
  fits y hy := by
    have other : y.holder ≠ p := fun e => hp (by rw [turn_move] at hy; rw [holder, hy, ← e]; rfl)
    simpa [other] using h.fits y hy
  listed := h.listed
  fenced q hq := by
    by_cases hqp : q = p
    · subst hqp; exact hf (by simpa using hq)
    · exact h.fenced q (by simpa [hqp] using hq)
  waiting q := by
    by_cases hqp : q = p
    · subst hqp; simp
    · simpa [hqp] using h.waiting q

/-- The holder, or a port without an entry on a free bus, holds it as its turn requires. -/
theorem sound.hold (h : b.sound l) (y : Turn) (hy : b.holder = some y.holder ∨ b.holder = none ∧ b.waits y.holder = false)
    (hfits : y.fits x l) : (b.hold x y).sound l where
  holds q := by
    by_cases hq : q = y.holder
    · subst hq; simp [hfits.holdsBus]
    · have other : b.holder ≠ some q := by
        obtain e | ⟨e, -⟩ := hy <;> rw [e]
        · exact fun e => hq (Option.some.inj e).symm
        · exact nofun
      simpa [hq, Ne.symm hq] using mt (h.holds q).1 other
  fits z hz := by
    cases hz
    simpa using hfits
  listed := by
    rw [holder_hold]
    obtain e | ⟨e, -⟩ := hy
    · exact e ▸ h.listed
    · rw [h.no_cycles e]; exact .nil _
  fenced q hq := by
    by_cases hqp : q = y.holder
    · have holds := hfits.holdsBus
      rw [show x = .fenced by simpa [hqp] using hq] at holds
      cases holds
    · exact h.fenced q (by simpa [hqp] using hq)
  waiting q := by
    by_cases hqp : q = y.holder
    · subst hqp
      have free : b.waits y.holder = false := hy.elim h.not_waiting And.right
      have state : x ≠ .waiting := fun e => by cases e; exact hfits
      simp [free, state]
    · simpa [hqp] using h.waiting q

/-- The holder's tenure ends, and its list with it. -/
theorem sound.release (h : b.sound l) (hp : b.holder = some p) (hx : x.holdsBus = false) (hw : x ≠ .waiting)
    (hf : x = .fenced → p ≠ b.supervisor) : (b.release p x).sound [] where
  holds q := by
    by_cases hq : q = p
    · subst hq; simp [hx]
    · have other : b.holder ≠ some q := by rw [hp]; exact fun e => hq (Option.some.inj e).symm
      simpa [hq] using mt (h.holds q).1 other
  fits _ hy := nomatch hy
  listed := .nil _
  fenced q hq := by
    by_cases hqp : q = p
    · subst hqp; exact hf (by simpa using hq)
    · exact h.fenced q (by simpa [hqp] using hq)
  waiting q := by
    by_cases hqp : q = p
    · subst hqp
      simp [h.not_waiting hp, hw]
    · simpa [hqp] using h.waiting q

end Bus

theorem State.bus_holder (s : State) : s.bus.holder = s.holder := by
  simp only [Bus.holder, State.bus, Option.map_map, State.holder]
  rfl

theorem State.bus_sound_iff (s : State) : s.bus.sound s.cycles ↔ s.busSound ∧ s.waitingSound := by
  have shape : (∀ x, s.bus.turn = some x → x.fits (s.bus.states x.holder) s.cycles) ↔
      ∀ t, s.tenure = some t → s.tenureShape t := by
    simp only [s.tenureShape_iff, State.bus, Option.map_eq_some_iff]
    exact ⟨fun h t ht => h _ ⟨t, ht, rfl⟩, fun h x ⟨t, ht, e⟩ => e ▸ h t ht⟩
  have idle : s.holder = none ↔ s.tenure = none := Option.map_eq_none_iff
  constructor
  · rintro ⟨holds, fits, ⟨few, costs, none, marks⟩, fenced, waiting⟩
    rw [s.bus_holder] at holds none marks
    exact ⟨⟨holds, shape.1 fits, few, costs, fun h => none (idle.2 h), marks, fenced⟩, waiting⟩
  · rintro ⟨⟨holds, fits, few, costs, none, marks, fenced⟩, waiting⟩
    refine ⟨?_, shape.2 fits, ⟨few, costs, ?_, ?_⟩, fenced, waiting⟩ <;> rw [s.bus_holder]
    · exact holds
    · exact fun h => none (idle.1 h)
    · exact marks

/-! ## The bus after each update -/

theorem State.bus_setPort (s : State) (p : Port) (r : PortRecord) :
    (s.setPort p r).bus = { s.bus with states := Function.update s.bus.states p r.state } := by
  have states : (s.setPort p r).bus.states = Function.update s.bus.states p r.state := by
    funext q
    by_cases h : q = p <;> simp [State.bus, State.port_setPort, h]
  rw [← states]
  rfl

/-- A port record replaced by one of the same state leaves the bus. -/
theorem State.bus_setPort_same (s : State) (p : Port) (r : PortRecord) (h : r.state = (s.port p).state) :
    (s.setPort p r).bus = s.bus := by
  rw [s.bus_setPort, h]
  exact congrArg (fun f => ({ s.bus with states := f } : Bus)) (Function.update_eq_self p s.bus.states)

theorem State.bus_setPortState (s : State) (p : Port) (x : PortState) :
    (s.setPortState p x).bus = { s.bus with states := Function.update s.bus.states p x } := s.bus_setPort p _

/-- An entry replaced together with the state of its port (R77). -/
theorem State.bus_setEntry (s : State) (p : Port) (e : Option WaitingEntry) (x : PortState)
    (h : e.isSome = decide (x = .waiting)) : ((s.setWaiting p e).setPortState p x).bus = s.bus.move p x := by
  have waits : ((s.setWaiting p e).setPortState p x).bus.waits =
      Function.update s.bus.waits p (decide (x = .waiting)) := by
    funext q
    by_cases hq : q = p <;> simp [State.bus, State.setWaiting, bankGet_bankSet, hq, h]
  rw [Bus.move, ← waits, State.bus_setPortState]
  rfl

theorem State.bus_assertYield (s : State) (t : Tenure) (r : YieldReason) :
    (s.assertYield t r).bus = s.bus.hold .yielding { t.turn with asked := true, timed := true, graced := true } :=
  State.bus_setPort _ _ _

theorem State.bus_endTenure (s : State) (p : Port) (x : PortState) : (s.endTenure p x).bus = s.bus.release p x := by
  have states : (s.setPortState p x).bus.states = Function.update s.bus.states p x :=
    congrArg Bus.states (s.bus_setPortState p x)
  rw [Bus.release, ← states]
  rfl

/-- A tenure replaced by one of the same holder with the same registers present leaves the bus. -/
theorem State.bus_setTenure_same (s : State) (t t' : Tenure) (ht : s.tenure = some t) (h : t'.turn = t.turn) :
    (s.setTenure (some t')).bus = s.bus := by
  simp [State.bus, State.setTenure, ht, h]
  rfl

end Sys2Proof.Machine

namespace Sys2Proof.Machine

/-! # Events that keep the bus

An event that leaves the pending order keeps a sound bus whatever the list of cycles. -/

/-- The pending order stays, and a sound bus stays sound with the same list. -/
structure State.KeepsBus (s t : State) : Prop where
  order : t.pendingOrder = s.pendingOrder
  sound : ∀ l, s.bus.sound l → t.bus.sound l

theorem State.KeepsBus.refl (s : State) : s.KeepsBus s := ⟨rfl, fun _ => id⟩

theorem State.KeepsBus.trans {s t u : State} (h : s.KeepsBus t) (h' : t.KeepsBus u) : s.KeepsBus u :=
  ⟨h'.order.trans h.order, fun l hl => h'.sound l (h.sound l hl)⟩

theorem State.KeepsBus.of_eq {s t : State} (ho : t.pendingOrder = s.pendingOrder) (hb : t.bus = s.bus) :
    s.KeepsBus t := ⟨ho, fun _ h => hb ▸ h⟩

theorem State.KeepsBus.cycles {s t : State} (h : s.KeepsBus t) : t.cycles = s.cycles := by
  simp only [State.cycles, h.order]

/-- A tenure replaced by one of the same holder with the same registers present. -/
theorem State.setTenure_keepsBus (s : State) (t t' : Tenure) (ht : s.tenure = some t) (h : t'.turn = t.turn) :
    s.KeepsBus (s.setTenure (some t')) := .of_eq rfl (s.bus_setTenure_same t t' ht h)

/-- A yield asserted in the tenure of a GRANTED holder (R110). -/
theorem State.assertYield_keepsBus (s : State) (t : Tenure) (r : YieldReason) (ht : s.tenure = some t)
    (hm : s.mayYield t = true) : s.KeepsBus (s.assertYield t r) := by
  refine ⟨rfl, fun l h => ?_⟩
  have granted : s.bus.states t.turn.holder = .granted := by
    simp only [State.mayYield, Bool.and_eq_true, decide_eq_true_eq] at hm
    exact hm.1
  have turn : s.bus.turn = some t.turn := by simp [State.bus, ht]
  have fits := h.fits t.turn turn
  rw [granted] at fits
  rw [s.bus_assertYield]
  exact h.hold _ (.inl (by rw [Bus.holder, turn]; rfl)) ⟨rfl, rfl, rfl, fits.2.2.2⟩

theorem State.raiseYield_keepsBus (s : State) (r : YieldReason) : s.KeepsBus (s.raiseYield r) := by
  unfold State.raiseYield
  split
  · exact .refl s
  · rename_i t ht
    split
    · rename_i hm; exact s.assertYield_keepsBus t r ht hm
    · exact .refl s

theorem State.testYield_keepsBus (s : State) : s.KeepsBus s.testYield := by
  rcases s.testYield_cases with ⟨t, r, ht, hm, -, h⟩ | ⟨h, -⟩
  · rw [h]; exact s.assertYield_keepsBus t r ht hm
  · rw [h]; exact .refl s

theorem State.withdrawDrawing_keepsBus (s : State) (h : Handle) (cls : ResClass) :
    s.KeepsBus (s.withdrawDrawing h cls) := by
  unfold State.withdrawDrawing
  split
  · exact .refl s
  · rename_i t ht
    have withdrawn := s.setTenure_keepsBus t { t with drawing := none, standing := .three } ht rfl
    split
    · cases cls with
      | fixed => exact withdrawn.trans (State.raiseYield_keepsBus _ .withdrawn)
      | elastic => exact withdrawn
    · exact .refl s

theorem State.refillStanding_keepsBus (s : State) (h : Handle) (cls : ResClass) :
    s.KeepsBus (s.refillStanding h cls) := by
  unfold State.refillStanding
  split
  · exact .refl s
  · rename_i t ht
    split
    · exact s.setTenure_keepsBus t _ ht rfl
    · exact .refl s

theorem State.setLive_keepsBus (s : State) (k : Slot) (r : Reservation) : s.KeepsBus (s.setLive k r) := .of_eq rfl rfl

theorem State.replaceContribution_keepsBus (s : State) (a b : Reservation) : s.KeepsBus (s.replaceContribution a b) :=
  .of_eq rfl rfl

theorem dropWaiting_isSome (h : Handle) (e : Option WaitingEntry) : (dropWaiting h e).isSome = e.isSome := by
  cases e <;> rfl

theorem State.retireRecord_keepsBus (s : State) (k : Slot) : s.KeepsBus (s.retireRecord k) := by
  cases h : s.liveAt k with
  | none => rw [s.retireRecord_free k h]; exact .refl s
  | some r =>
    rw [s.retireRecord_of_live k r h]
    refine State.KeepsBus.trans ?_ (State.withdrawDrawing_keepsBus _ _ _)
    refine .of_eq rfl ?_
    simp [State.bus, State.port, dropWaiting_isSome]

theorem Bus.sound.holder_ne_of_port {s : State} {l : List Cycle} {p : Port} (h : s.bus.sound l)
    (hp : (s.port p).state.holdsBus = false) : s.bus.holder ≠ some p :=
  fun held => Bool.false_ne_true (hp.symm.trans ((h.holds p).2 held))

/-- A port that does not hold the bus moves, with its entry, to a state that does not hold it (R78, R80). -/
theorem State.setEntry_keepsBus (s : State) (p : Port) (e : Option WaitingEntry) (x : PortState)
    (he : e.isSome = decide (x = .waiting)) (hp : (s.port p).state.holdsBus = false) (hx : x.holdsBus = false)
    (hf : x ≠ .fenced) : s.KeepsBus ((s.setWaiting p e).setPortState p x) := by
  refine ⟨rfl, fun l h => ?_⟩
  have other : s.bus.holder ≠ some p := h.holder_ne_of_port hp
  rw [s.bus_setEntry p e x he]
  exact h.move other hx fun e => absurd e hf

/-- A port that neither holds the bus nor waits moves to a state that does neither (R81, R126). -/
theorem State.setPort_keepsBus (s : State) (p : Port) (r : PortRecord) (hp : (s.port p).state.holdsBus = false)
    (hw : (s.port p).state ≠ .waiting) (hr : r.state.holdsBus = false) (hrw : r.state ≠ .waiting)
    (hf : r.state ≠ .fenced) : s.KeepsBus (s.setPort p r) := by
  refine ⟨rfl, fun l h => ?_⟩
  have other : s.bus.holder ≠ some p := h.holder_ne_of_port hp
  have none : s.bus.waits p = decide (r.state = .waiting) := by
    rw [decide_eq_false hrw, Bool.eq_false_iff]
    exact fun e => hw ((h.waiting p).1 e)
  have moved : (s.setPort p r).bus = s.bus.move p r.state := by
    rw [s.bus_setPort, Bus.move, ← none, Function.update_eq_self]
  rw [moved]
  exact h.move other hr fun e => absurd e hf

theorem State.chargeRecord_keepsBus (s : State) (h : Handle) (cost : Nat) : s.KeepsBus (s.chargeRecord h cost) := by
  unfold State.chargeRecord
  split
  · exact .refl s
  · rename_i r _
    have spent := s.setLive_keepsBus h.slot { r with credit := r.credit - cost }
    dsimp only
    split
    · split
      · exact spent.trans (State.raiseYield_keepsBus _ _)
      · rename_i t _ ht
        exact spent.trans (State.setTenure_keepsBus _ t _ ht rfl)
      · exact spent
    · exact spent

theorem State.charge_keepsBus (s : State) (cost : Nat) : s.KeepsBus (s.charge cost) := by
  unfold State.charge
  split
  · exact .refl s
  · rename_i t ht
    have counted := s.setTenure_keepsBus t { t with usage := min 65535 (t.usage + cost), idleTicks := 0 } ht rfl
    dsimp only
    split
    · exact counted.trans (State.testYield_keepsBus _)
    · exact counted.trans ((State.chargeRecord_keepsBus _ _ _).trans (State.testYield_keepsBus _))

theorem State.raiseIdle_turn (s : State) (t : Tenure) : (s.raiseIdle t).turn = t.turn := by
  unfold State.raiseIdle
  split <;> rfl

theorem State.idleTick_keepsBus (s : State) : s.KeepsBus s.idleTick := by
  unfold State.idleTick
  split
  · exact .refl s
  · rename_i t ht
    split
    · exact (s.setTenure_keepsBus t _ ht (s.raiseIdle_turn t)).trans (State.testYield_keepsBus _)
    · exact .refl s

/-! # The conditions of a yield

What R106 reads of a state is its `State.contest`: the tenure, whether its holder is GRANTED, the tier at which each
port's entry competes, and the max tenure of the drawing reservation. -/

structure Contest where
  tenure : Option Tenure
  granted : Bool
  tier : Port → Option Tier
  maxTenure : Option Nat

def State.contest (s : State) : Contest where
  tenure := s.tenure
  granted := s.tenure.any fun t => decide ((s.port t.holder).state = .granted)
  tier := s.competitorTier
  maxTenure := ((s.tenure.bind (·.drawing)).bind s.fresh).map (·.maxTenure)

theorem State.limitReached_eq (s : State) (t : Tenure) (ht : s.tenure = some t) : s.limitReached t =
    if t.standing = .three then decide (t.spareLimit ≤ t.usage) else s.contest.maxTenure.any (decide <| · ≤ t.usage) := by
  simp only [State.limitReached, State.contest, ht, Option.bind_some, Option.any_map]

/-- No yield condition is met and left unasked, where the contest is one in which none is. -/
theorem State.yieldsAsked.of_contest {s u : State} (h : s.yieldsAsked) (e : u.contest = s.contest) : u.yieldsAsked := by
  intro t ht hm
  have tenure : s.tenure = some t := (congrArg Contest.tenure e).symm.trans ht
  have tier : u.competitorTier = s.competitorTier := congrArg Contest.tier e
  have granted : s.contest.granted = u.contest.granted := (congrArg Contest.granted e).symm
  have may : s.mayYield t = u.mayYield t := by
    simp only [State.contest, ht, tenure, Option.any_some] at granted
    simp only [State.mayYield, granted]
  have condition : u.yieldCondition t = s.yieldCondition t := by
    unfold State.yieldCondition State.preempts State.competitorAt State.anyCompetitor
    rw [tier, u.limitReached_eq t ht, s.limitReached_eq t tenure, e]
  rw [condition]
  exact h t tenure (may.trans hm)

theorem State.testYield_yieldsAsked (s : State) : s.testYield.yieldsAsked := by
  rcases s.testYield_cases with ⟨t, r, -, -, -, e⟩ | ⟨e, none⟩
  · intro t' ht hm
    rw [e] at ht hm
    have holder : t'.holder = t.holder := by cases ht; rfl
    rw [State.mayYield_assertYield s t t' r holder] at hm
    cases hm
  · rw [e]; exact none

theorem State.yieldsAsked_of_no_tenure {s : State} (h : s.tenure = none) : s.yieldsAsked := by
  intro t ht
  rw [h] at ht
  cases ht

/-- A holder that is not GRANTED is not asked. -/
theorem State.yieldsAsked_of_not_granted {s : State} (h : ∀ t, s.tenure = some t → (s.port t.holder).state ≠ .granted) :
    s.yieldsAsked := by
  intro t ht hm
  simp only [State.mayYield, Bool.and_eq_true, decide_eq_true_eq] at hm
  exact absurd hm.1 (h t ht)

/-- A port that leaves for a state other than GRANTED changes no more of the contest than its own right to be asked. -/
theorem State.yieldsAsked.setPort {s : State} (h : s.yieldsAsked) (p : Port) (r : PortRecord) (hr : r.state ≠ .granted) :
    (s.setPort p r).yieldsAsked := by
  intro t ht hm
  by_cases hp : t.holder = p
  · simp [State.mayYield, State.port_setPort, hp, hr] at hm
  · refine h.of_contest ?_ t ht hm
    have tenure : s.tenure = some t := ht
    simp only [State.contest, State.port_setPort, State.setPort_tenure, tenure, Option.any_some, hp, if_false]
    rfl

/-- Records changed so that the handle of every entry names a record of the same tier, and the handle of the tenure one of
the same max tenure, leave the contest. -/
theorem State.contest_of_table (s : State) (v : Vector TableRecord 32)
    (tiers : ∀ p e h, bankGet s.waiting p = some e → e.handle = some h →
      (State.fresh { s with table := v } h).map (·.rank.tier?) = (s.fresh h).map (·.rank.tier?))
    (limit : ∀ t h, s.tenure = some t → t.drawing = some h →
      (State.fresh { s with table := v } h).map (·.maxTenure) = (s.fresh h).map (·.maxTenure)) :
    State.contest { s with table := v } = s.contest := by
  have rank (u : State) (e : WaitingEntry) (h : Handle) (hh : e.handle = some h) :
      (u.entryRank e).tier? = ((u.fresh h).map (·.rank.tier?)).getD (some .three) := by
    simp only [State.entryRank, hh]
    cases u.fresh h <;> rfl
  have tier : State.competitorTier { s with table := v } = s.competitorTier := by
    funext p
    simp only [State.competitorTier, State.portRank]
    cases hw : bankGet s.waiting p with
    | none => rfl
    | some e =>
      cases hh : e.handle with
      | none => simp [State.entryRank, hh]
      | some h =>
        simp only [Option.map_some, Option.bind_some, rank _ e h hh, tiers p e h hw hh]
  have drawn : (State.contest { s with table := v }).maxTenure = s.contest.maxTenure := by
    simp only [State.contest]
    cases hd : s.tenure.bind (·.drawing) with
    | none => rfl
    | some h =>
      obtain ⟨t, ht, hdr⟩ := Option.bind_eq_some_iff.1 hd
      exact limit t h ht hdr
  simp only [State.contest] at drawn ⊢
  rw [tier, drawn]
  rfl

/-- The handle of a slot names its record. -/
theorem State.fresh_handleAt (s : State) (k : Slot) : s.fresh (s.handleAt k) = s.liveAt k := if_pos rfl

theorem State.fresh_setLive_self (s : State) (k : Slot) (r : Reservation) :
    (s.setLive k r).fresh (s.handleAt k) = some r := by
  have fresh := s.use.fresh_setLive k r (s.handleAt k)
  rwa [if_pos (by rfl)] at fresh

/-- A write of a record changes what its own handle names alone. -/
theorem State.fresh_setLive_ne (s : State) (k : Slot) (r : Reservation) (g : Handle) (hg : g ≠ s.handleAt k) :
    (s.setLive k r).fresh g = s.fresh g := by
  have fresh : (s.setLive k r).fresh g = if g = s.handleAt k then some r else if g.slot = k then none else s.fresh g :=
    s.use.fresh_setLive k r g
  rw [fresh, if_neg hg]
  split
  · rename_i slot
    cases hs : s.fresh g with
    | none => rfl
    | some x => exact absurd (slot ▸ (s.liveAt_of_fresh g x hs).1) hg
  · rfl

/-- A live record changed to one of the same tier, and of the same max tenure if the tenure draws on it. -/
theorem State.contest_setLive (s : State) (k : Slot) (r r' : Reservation) (h : s.liveAt k = some r)
    (htier : r'.rank.tier? = r.rank.tier?)
    (hmax : r'.maxTenure = r.maxTenure ∨ s.tenure.bind (·.drawing) ≠ some (s.handleAt k)) :
    (s.setLive k r').contest = s.contest := by
  refine s.contest_of_table _ (fun p e g _ _ => ?_) fun t g ht hd => ?_
  · by_cases own : g = s.handleAt k
    · change Option.map _ ((s.setLive k r').fresh g) = _
      rw [own, s.fresh_setLive_self, s.fresh_handleAt, h, Option.map_some, Option.map_some, htier]
    · exact congrArg _ (s.fresh_setLive_ne k r' g own)
  · by_cases own : g = s.handleAt k
    · have same := hmax.resolve_right fun other => other (by rw [ht, ← own]; exact hd)
      change Option.map _ ((s.setLive k r').fresh g) = _
      rw [own, s.fresh_setLive_self, s.fresh_handleAt, h, Option.map_some, Option.map_some, same]
    · exact congrArg _ (s.fresh_setLive_ne k r' g own)

/-- A record written in a FREE slot: no entry and no tenure holds its handle (R26). -/
theorem State.contest_setLive_free (s : State) (hs : s.handlesSound) (k : Slot) (r : Reservation)
    (h : s.liveAt k = none) : (s.setLive k r).contest = s.contest := by
  obtain ⟨-, entries, drawn⟩ := hs
  have held (g : Handle) (x : Reservation) (hx : s.fresh g = some x) : (s.setLive k r).fresh g = s.fresh g := by
    refine s.fresh_setLive_ne k r g fun own => ?_
    rw [own, s.fresh_handleAt, h] at hx
    cases hx
  refine s.contest_of_table _ (fun p e g he hh => ?_) fun t g ht hd => ?_
  · obtain ⟨x, hx, -⟩ := entries p e g he hh
    exact congrArg _ (held g x hx)
  · obtain ⟨x, hx, -⟩ := drawn t g ht hd
    exact congrArg _ (held g x hx)

end Sys2Proof.Machine

namespace Sys2Proof.Machine

/-! # Orderly events

An event that leaves the pending order is orderly where it keeps a sound bus and, with sound records and handles, leaves
no yield condition unasked. Every visit and every take is. -/

/-- The bus is kept, and no yield condition goes unasked. -/
structure State.Orderly (s t : State) : Prop extends s.KeepsBus t where
  asked : s.recordsSound → s.handlesSound → s.yieldsAsked → t.yieldsAsked

theorem State.Orderly.refl (s : State) : s.Orderly s := ⟨.refl s, fun _ _ => id⟩

theorem State.changes.recordsSound {s t : State} (h : s.changes t) (hs : s.recordsSound) : t.recordsSound :=
  Use.Change.recordsSound h hs

theorem State.changes.handlesSound {s t : State} (h : s.changes t) (hs : s.handlesSound) : t.handlesSound :=
  t.handlesSound_iff.2 (Use.Change.handlesSound h (s.handlesSound_iff.1 hs))

theorem State.Orderly.trans {s t u : State} (h : s.Orderly t) (c : s.changes t) (h' : t.Orderly u) : s.Orderly u :=
  ⟨h.toKeepsBus.trans h'.toKeepsBus,
    fun hr hh hy => h'.asked (c.recordsSound hr) (c.handlesSound hh) (h.asked hr hh hy)⟩

/-- The bus is kept and the contest left. -/
theorem State.KeepsBus.orderly {s t : State} (h : s.KeepsBus t) (e : t.contest = s.contest) : s.Orderly t :=
  ⟨h, fun _ _ hy => hy.of_contest e⟩

/-- The bus is kept, and then the conditions of R106 are tested. -/
theorem State.KeepsBus.tested {s t : State} (h : s.KeepsBus t) : s.Orderly t.testYield :=
  ⟨h.trans t.testYield_keepsBus, fun _ _ _ => t.testYield_yieldsAsked⟩

/-! ## What neither the bus nor the contest reads -/

/-- The registers that the bus and the contest read. -/
structure Stage where
  ports : Vector PortRecord 8
  supervisor : Port
  table : Vector TableRecord 32
  waiting : Vector (Option WaitingEntry) 8
  tenure : Option Tenure
  order : List Strobe

def State.stage (s : State) : Stage where
  ports := s.ports
  supervisor := s.supervisor
  table := s.table
  waiting := s.waiting
  tenure := s.tenure
  order := s.pendingOrder

theorem State.views_of_stage {s t : State} (h : t.stage = s.stage) :
    t.pendingOrder = s.pendingOrder ∧ t.bus = s.bus ∧ t.contest = s.contest := by
  cases t
  cases s
  simp only [State.stage, Stage.mk.injEq] at h
  obtain ⟨rfl, rfl, rfl, rfl, rfl, rfl⟩ := h
  exact ⟨rfl, rfl, rfl⟩

theorem State.orderly_of_stage {s t : State} (h : t.stage = s.stage) : s.Orderly t :=
  have ⟨order, bus, contest⟩ := State.views_of_stage h
  (State.KeepsBus.of_eq order bus).orderly contest

theorem State.Orderly.aside {s t u : State} (h : s.Orderly t) (e : u.stage = t.stage) : s.Orderly u :=
  have next := State.orderly_of_stage e
  have contest := (State.views_of_stage e).2.2
  ⟨h.toKeepsBus.trans next.toKeepsBus, fun hr hh hy => (h.asked hr hh hy).of_contest contest⟩

@[simp] theorem State.stage_place (s : State) (p : Port) (k : NoticeKind) (x : Subject) :
    (s.place p k x).stage = s.stage := by
  obtain ⟨a, h⟩ := s.place_frame p k x; rw [h]; rfl

@[simp] theorem State.stage_placeIf (s : State) (p : Port) (k : Option NoticeKind) (x : Subject) :
    (s.placeIf p k x).stage = s.stage := by
  obtain ⟨a, h⟩ := s.placeIf_frame p k x; rw [h]; rfl

@[simp] theorem State.stage_placeTableReset (s : State) : s.placeTableReset.stage = s.stage := by
  obtain ⟨a, h⟩ := s.placeTableReset_frame; rw [h]; rfl

@[simp] theorem State.stage_complete (s : State) (p : Port) (x : ReplyStatus) (n : Nat) (bs : List Byte) :
    (s.complete p x n bs).stage = s.stage := by
  obtain ⟨a, h⟩ := s.complete_frame p x n bs; rw [h]; rfl

@[simp] theorem State.stage_refuse (s : State) (p : Port) (x : ReplyStatus) : (s.refuse p x).stage = s.stage :=
  s.stage_complete p x 0 []

@[simp] theorem State.stage_setBinding (s : State) (p : Port) (c : SelCode) (h : Option Handle) :
    (s.setBinding p c h).stage = s.stage := rfl

@[simp] theorem State.stage_setWalk (s : State) (w : Option Walk) : ({ s with walk := w } : State).stage = s.stage := rfl

theorem State.refuse_orderly (s : State) (p : Port) (x : ReplyStatus) : s.Orderly (s.refuse p x) :=
  State.orderly_of_stage (s.stage_refuse p x)

theorem State.Orderly.complete {s t : State} (h : s.Orderly t) (p : Port) (x : ReplyStatus) (n : Nat) (bs : List Byte) :
    s.Orderly (t.complete p x n bs) := h.aside (t.stage_complete p x n bs)

/-! ## Visits -/

theorem State.retire_orderly (s : State) (k : Slot) : s.Orderly (s.retire k) := (s.retireRecord_keepsBus k).tested

theorem State.visitActive_orderly (s : State) (k : Slot) (r : Reservation) (hst : r.state = .active) :
    s.Orderly (s.visitActive k r) := by
  rw [s.visitActive_eq k r hst _ _ rfl rfl]
  refine State.KeepsBus.tested ?_
  have written (short : Bool) (notice : Option NoticeKind) : s.KeepsBus (s.refilledAt k r short notice) := .of_eq rfl rfl
  split
  · exact (written _ _).trans (State.withdrawDrawing_keepsBus _ _ _)
  · exact (written _ _).trans (State.refillStanding_keepsBus _ _ _)

theorem State.visitSlot_orderly (s : State) (k : Slot) : s.Orderly (s.visitSlot k) := by
  unfold State.visitSlot
  split
  · exact .refl s
  · rename_i r _
    split
    · rename_i hst; exact s.visitActive_orderly k r hst
    · exact ((s.replaceContribution_keepsBus _ _).trans (State.setLive_keepsBus _ k _)).tested
    · exact ((s.retireRecord_keepsBus k).trans (State.orderly_of_stage (State.stage_place _ _ _ _)).toKeepsBus).tested

theorem State.sweepStep_orderly (s : State) : s.Orderly s.sweepStep := by
  unfold State.sweepStep
  split
  · exact .refl s
  · rename_i k _
    exact (s.visitSlot_orderly k).aside rfl

theorem State.walkStep_orderly (s : State) : s.Orderly s.walkStep := by
  unfold State.walkStep
  split
  · exact .refl s
  · rename_i w _
    split
    · simp only [State.listStep]
      split
      · exact State.orderly_of_stage rfl
      · exact State.orderly_of_stage (by simp)
    · simp only [State.resetTableStep]
      refine (s.retire_orderly w.next).aside ?_
      split
      · rfl
      · split <;> simp

/-! ## Takes -/

/-- A take's body is orderly. -/
def TakeOrderly (body : Port → Vector Byte 16 → State → State) : Prop := ∀ p c (s : State), s.Orderly (body p c s)

theorem TakeOrderly.supervisorOnly {body : Port → Vector Byte 16 → State → State} (hb : TakeOrderly body) :
    TakeOrderly (supervisorOnly body) := by
  intro p c s
  unfold Machine.supervisorOnly
  split
  · exact hb p c s
  · exact s.refuse_orderly _ _

/-- An admitted opening writes a FREE slot, which no entry and no tenure names (R11, R12). -/
theorem State.admitOpening_orderly (s : State) (k : Slot) (owner : Port) (t : OpenTerms)
    (hk : s.openingSlot owner t = .ok k) : s.Orderly (s.admitOpening k owner t).1 where
  order := rfl
  sound _ h := h
  asked _ hh hy := hy.of_contest (s.contest_setLive_free hh k (s.newReservation owner t) (s.openingSlot_ok owner t k hk).1)

theorem openTake_orderly : TakeOrderly openTake := by
  intro p c s
  unfold openTake
  split
  · exact s.refuse_orderly _ _
  · split
    · exact s.refuse_orderly _ _
    · rename_i t _ _ k hk
      exact (s.admitOpening_orderly k p t hk).complete _ _ _ _

theorem openForTake_orderly : TakeOrderly openForTake := by
  intro p c s
  unfold openForTake
  split
  · rename_i owner t _ _
    split
    · exact s.refuse_orderly _ _
    · split
      · exact s.refuse_orderly _ _
      · rename_i k hk
        exact ((s.admitOpening_orderly k owner t hk).aside (State.stage_place _ _ _ _)).complete _ _ _ _
  · exact s.refuse_orderly _ _

/-- A rank's tier reads the class, preempt and the credit, and the state only where there is credit (R83). -/
theorem tier_of_rank (r r' : Reservation) (hcls : r'.cls = r.cls) (hp : r'.preempt = r.preempt)
    (hc : r'.credit = r.credit) (hs : r'.state = r.state ∨ r.credit = 0) : r'.rank.tier? = r.rank.tier? := by
  by_cases none : r.credit = 0
  · rw [r.rank_of_no_credit (.inr none), r'.rank_of_no_credit (.inr (hc.trans none)), hcls]
  · simp only [Reservation.rank, hs.resolve_right none, hc, hcls, hp]
    split
    · split <;> rfl
    · rfl

/-- A sound record has credit only while it is ACTIVE (R4). -/
theorem Reservation.sound.no_credit {r : Reservation} (h : r.sound) (hs : r.state ≠ .active) : r.credit = 0 := by
  obtain ⟨-, -, -, -, -, -, -, -, inactive, -⟩ := h
  exact inactive hs

/-- A sound record is SUSPENDED exactly while it holds a cause (R13). -/
theorem Reservation.sound.suspended {r : Reservation} (h : r.sound) :
    r.state = .suspended ↔ r.causes.command = true ∨ r.causes.fence = true := by
  obtain ⟨-, -, -, -, -, -, -, -, -, causes, -⟩ := h
  exact causes

/-- A live record changed to one that, if it was sound, is of the same tier and max tenure. -/
theorem State.setLive_orderly (s : State) (k : Slot) (r r' : Reservation) (h : s.liveAt k = some r)
    (htier : r.sound → r'.rank.tier? = r.rank.tier?) (hmax : r'.maxTenure = r.maxTenure) : s.Orderly (s.setLive k r') where
  order := rfl
  sound _ hl := hl
  asked hr _ hy := hy.of_contest (s.contest_setLive k r r' h (htier (hr k r h)) (.inl hmax))

/-- A MODIFY that does not reach the Tenure Monitor changes no max tenure on which it counts, and no tier (R83, R109). -/
theorem State.applyChanges_orderly (s : State) (ch : Changes) (h : Handle) (r : Reservation) (hf : s.fresh h = some r) :
    s.Orderly (s.applyChanges ch h r) := by
  obtain ⟨own, live⟩ := s.liveAt_of_fresh h r hf
  have written : s.KeepsBus ((s.replaceContribution r (changeReservation ch r)).setLive h.slot (changeReservation ch r)) :=
    (s.replaceContribution_keepsBus _ _).trans (State.setLive_keepsBus _ _ _)
  rw [State.applyChanges_eq s r ch h _ rfl]
  split
  · exact written.tested
  · rename_i reaches
    refine written.orderly (s.contest_setLive h.slot r _ live (tier_of_rank r _ rfl rfl rfl (.inl rfl)) ?_)
    rw [← own]
    simp only [State.changeReaches, Bool.or_eq_true, not_or, Bool.and_eq_true, not_and] at reaches
    cases named : ch.maxTenure with
    | none => exact .inl (by simp [changeReservation, named])
    | some n =>
      refine .inr fun drawn => reaches.1 (by simp [named]) ?_
      obtain ⟨t, ht, hd⟩ := Option.bind_eq_some_iff.1 drawn
      simp [ht, hd]

theorem modifyTake_orderly : TakeOrderly modifyTake := by
  intro p c s
  simp only [modifyTake]
  split
  · exact s.refuse_orderly _ _
  · split
    · exact s.refuse_orderly _ _
    · rename_i r hf
      split
      · exact s.refuse_orderly _ _
      · split
        · exact s.refuse_orderly _ _
        · split
          · exact s.refuse_orderly _ _
          · split
            · exact s.refuse_orderly _ _
            · exact (s.applyChanges_orderly _ _ r hf).complete _ _ _ _

/-- A RENEW that returns a LAPSED record to ACTIVE finds its credit 0 (R4, R19). -/
theorem tier_renewed (fenced : Bool) (r : Reservation) (h : r.sound) :
    (renewReservation fenced r).rank.tier? = r.rank.tier? := by
  unfold renewReservation
  split
  · rfl
  · split
    · exact tier_of_rank r _ rfl rfl rfl (.inl rfl)
    · exact tier_of_rank r _ rfl rfl rfl (.inl rfl)
    · rename_i lapsed
      have none := h.no_credit (by rw [lapsed]; decide)
      split <;> exact tier_of_rank r _ rfl rfl rfl (.inr none)

theorem maxTenure_renewed (fenced : Bool) (r : Reservation) : (renewReservation fenced r).maxTenure = r.maxTenure := by
  unfold renewReservation
  split
  · rfl
  · split
    · rfl
    · rfl
    · split <;> rfl

theorem renewTake_orderly : TakeOrderly renewTake := by
  intro p c s
  simp only [renewTake]
  split
  · exact s.refuse_orderly _ _
  · rename_i r hf
    split
    · exact s.refuse_orderly _ _
    · exact (s.setLive_orderly _ r _ (s.liveAt_of_fresh _ r hf).2 (tier_renewed _ r) (maxTenure_renewed _ r)).complete
        _ _ _ _

theorem closeTake_orderly : TakeOrderly closeTake := by
  intro p c s
  simp only [closeTake]
  split
  · exact s.refuse_orderly _ _
  · split
    · exact s.refuse_orderly _ _
    · exact (s.retire_orderly _).complete _ _ _ _

theorem bindTake_orderly : TakeOrderly bindTake := by
  intro p c s
  simp only [bindTake]
  split
  · exact s.refuse_orderly _ _
  · rename_i code _
    split
    · exact s.refuse_orderly _ _
    · split
      · exact s.refuse_orderly _ _
      · exact (State.orderly_of_stage (s.stage_setBinding p code _)).complete _ _ _ _

theorem unbindTake_orderly : TakeOrderly unbindTake := by
  intro p c s
  simp only [unbindTake]
  split
  · exact s.refuse_orderly _ _
  · rename_i code _
    split <;> exact (State.orderly_of_stage (s.stage_setBinding p code none)).complete _ _ _ _

theorem queryTake_orderly : TakeOrderly queryTake := by
  intro p c s
  simp only [queryTake]
  split
  · exact s.refuse_orderly _ _
  · split
    · exact s.refuse_orderly _ _
    · exact (State.Orderly.refl s).complete _ _ _ _

theorem listTake_orderly : TakeOrderly listTake := by
  intro p c s
  unfold listTake
  split
  · exact State.orderly_of_stage rfl
  · exact s.refuse_orderly _ _

theorem revokeTake_orderly : TakeOrderly revokeTake := by
  intro p c s
  simp only [revokeTake]
  split
  · exact s.refuse_orderly _ _
  · exact ((s.retire_orderly _).aside (State.stage_place _ _ _ _)).complete _ _ _ _

theorem suspendTake_orderly : TakeOrderly suspendTake := by
  intro p c s
  simp only [suspendTake]
  split
  · exact s.refuse_orderly _ _
  · rename_i r _
    split
    · exact s.refuse_orderly _ _
    · have withdrawn := (s.setLive_keepsBus (handleField c).slot (suspendReservation r)).trans
        (State.withdrawDrawing_keepsBus _ (handleField c) r.cls)
      exact (withdrawn.tested.aside (State.stage_place _ _ _ _)).complete _ _ _ _

/-- A RESUME that returns a record to ACTIVE finds its credit 0 (R4, R16). -/
theorem tier_resumed (r : Reservation) (hc : r.causes.command = true) (h : r.sound) :
    (resumeReservation r).rank.tier? = r.rank.tier? := by
  have suspended := h.suspended.2 (.inl hc)
  exact tier_of_rank r _ rfl rfl rfl (.inr (h.no_credit (by rw [suspended]; decide)))

theorem resumeTake_orderly : TakeOrderly resumeTake := by
  intro p c s
  simp only [resumeTake]
  split
  · exact s.refuse_orderly _ _
  · rename_i r hf
    split
    · exact s.refuse_orderly _ _
    · rename_i hc
      have resumed := s.setLive_orderly _ r (resumeReservation r) (s.liveAt_of_fresh _ r hf).2
        (tier_resumed r (by simpa using hc)) rfl
      exact (resumed.aside (State.stage_placeIf _ _ _ _)).complete _ _ _ _

theorem demoteTake_orderly : TakeOrderly demoteTake := by
  intro p c s
  unfold demoteTake
  split
  · exact s.refuse_orderly _ _
  · rename_i q _
    exact State.Orderly.complete (s := s) (t := { s with pointers := Vector.replicate 6 q }) (State.orderly_of_stage rfl)
      _ _ _ _

/-- A live record after the clearing of a port's fence (R17). -/
def clearedReservation (q : Port) (r : Reservation) : Reservation :=
  if r.owner = q ∧ r.causes.fence = true then clearFenceReservation r else r

theorem clearedRecord_eq (q : Port) (x : TableRecord) :
    clearedRecord q x = { x with live := x.live.map (clearedReservation q) } := by
  unfold clearedRecord clearedReservation
  split
  · rename_i h; cases x; simp_all
  · rename_i r h
    split
    · rename_i own; simp [h, own, TableRecord.holding]
    · rename_i own; cases x; simp_all

/-- A record that the clearing of a fence returns to ACTIVE has credit 0 (R4, R17). -/
theorem tier_cleared (q : Port) (r : Reservation) (h : r.sound) :
    (clearedReservation q r).rank.tier? = r.rank.tier? := by
  unfold clearedReservation
  split
  · rename_i own
    have suspended := h.suspended.2 (.inr own.2)
    have none := h.no_credit (by rw [suspended]; decide)
    unfold clearFenceReservation
    split
    · exact tier_of_rank r _ rfl rfl rfl (.inl rfl)
    · exact tier_of_rank r _ rfl rfl none.symm (.inr none)
  · rfl

theorem maxTenure_cleared (q : Port) (r : Reservation) : (clearedReservation q r).maxTenure = r.maxTenure := by
  unfold clearedReservation clearFenceReservation
  split
  · split <;> rfl
  · rfl

theorem State.clearedIn_table_notices (s : State) (q : Port) (l : List Slot) :
    ∃ v n, s.clearedIn q l = { s with table := v, notices := n } := ⟨_, _, s.clearedIn_frame q l⟩

/-- The clearing of a fence leaves the contest among sound records (R17). -/
theorem State.contest_clearedIn (s : State) (q : Port) (hr : s.recordsSound) :
    (s.clearedIn q allSlots).contest = s.contest := by
  have fresh (h : Handle) : (s.clearedIn q allSlots).fresh h = (s.fresh h).map (clearedReservation q) := by
    simp only [State.fresh, State.liveAt, s.clearedIn_record, clearedRecord_eq]
    split <;> rfl
  have same {α : Type} (f : Reservation → α) (hf : ∀ r : Reservation, r.sound → f (clearedReservation q r) = f r)
      (h : Handle) : ((s.clearedIn q allSlots).fresh h).map f = (s.fresh h).map f := by
    rw [fresh, Option.map_map]
    cases hs : s.fresh h with
    | none => rfl
    | some r => exact congrArg some (hf r (hr _ r (s.liveAt_of_fresh h r hs).2))
  obtain ⟨v, n, e⟩ := s.clearedIn_table_notices q allSlots
  rw [e] at same ⊢
  exact s.contest_of_table v (fun _ _ h _ _ => same _ (tier_cleared q) h)
    fun _ h _ _ => same _ (fun r _ => maxTenure_cleared q r) h

/-- A FENCED port returns to WAITING with an entry or to IDLE (R81, R135). -/
theorem State.clearFence_orderly (s : State) (q : Port) (hq : (s.port q).state = .fenced) : s.Orderly (s.clearFence q) := by
  have contest := s.contest_clearedIn q
  obtain ⟨v, n, e⟩ := s.clearedIn_table_notices q allSlots
  rw [s.clearFence_eq q (by rw [hq]; decide), e]
  rw [e] at contest
  generalize hu : ({ s with table := v, notices := n } : State) = u at contest
  have cleared : s.KeepsBus u := by rw [← hu]; exact .of_eq rfl rfl
  have fenced : (u.port q).state = .fenced := by rw [← hu]; exact hq
  split
  · exact (cleared.trans (u.setEntry_keepsBus q _ .waiting rfl (by rw [fenced]; rfl) rfl (by decide))).tested
  · refine ⟨cleared.trans (u.setPort_keepsBus q _ ?_ ?_ rfl nofun nofun), fun hr _ hy => ?_⟩
    · rw [fenced]; rfl
    · rw [fenced]; decide
    · exact (hy.of_contest (contest hr)).setPort q _ nofun

theorem clearFenceTake_orderly : TakeOrderly clearFenceTake := by
  intro p c s
  unfold clearFenceTake
  split
  · exact s.refuse_orderly _ _
  · rename_i q _
    split
    · exact s.refuse_orderly _ _
    · rename_i hq
      exact (s.clearFence_orderly q (by simpa using hq)).complete _ _ _ _

theorem setFrameTake_orderly : TakeOrderly setFrameTake := by
  intro p c s
  simp only [setFrameTake]
  split
  · exact s.refuse_orderly _ _
  · split
    · exact s.refuse_orderly _ _
    · exact State.Orderly.complete (s := s) (t := { s with pendingConfig := some (frameFields c) })
        (State.orderly_of_stage rfl) _ _ _ _

theorem resetTableTake_orderly : TakeOrderly resetTableTake := fun _ _ _ => State.orderly_of_stage rfl

theorem queryPortTake_orderly : TakeOrderly queryPortTake := by
  intro p c s
  unfold queryPortTake
  split
  · exact s.refuse_orderly _ _
  · exact (State.Orderly.refl s).complete _ _ _ _

theorem badTake_orderly : TakeOrderly badTake := fun p _ s => s.refuse_orderly p _

/-- The take of any code (R150, R198). -/
theorem takeOf_orderly (b : Byte) : TakeOrderly (takeOf b) := by
  intro p c s
  unfold takeOf
  split
  · exact openTake_orderly p c s
  · exact modifyTake_orderly p c s
  · exact renewTake_orderly p c s
  · exact closeTake_orderly p c s
  · exact bindTake_orderly p c s
  · exact unbindTake_orderly p c s
  · exact queryTake_orderly p c s
  · exact listTake_orderly p c s
  · exact openForTake_orderly.supervisorOnly p c s
  · exact revokeTake_orderly.supervisorOnly p c s
  · exact suspendTake_orderly.supervisorOnly p c s
  · exact resumeTake_orderly.supervisorOnly p c s
  · exact demoteTake_orderly.supervisorOnly p c s
  · exact clearFenceTake_orderly.supervisorOnly p c s
  · exact setFrameTake_orderly.supervisorOnly p c s
  · exact resetTableTake_orderly.supervisorOnly p c s
  · exact queryPortTake_orderly.supervisorOnly p c s
  · exact badTake_orderly p c s

theorem State.take_orderly (s : State) (isCode : Byte → Bool) {body : Port → Vector Byte 16 → State → State}
    (hb : TakeOrderly body) : s.Orderly (s.take isCode body) := by
  rcases s.take_cases isCode body with e | ⟨p, rest, c, -, -, e⟩
  · rw [e]; exact .refl s
  · rw [e]
    have taken := hb p c { s with cmdQueue := rest }
    exact ⟨⟨taken.order, taken.sound⟩, taken.asked⟩

/-! ## The events that may wait no longer -/

/-- A chain of orderly events, each of which changes the view of the table lawfully. -/
def State.Settled (s t : State) : Prop := s.changes t ∧ s.Orderly t

theorem State.Settled.refl (s : State) : s.Settled s := ⟨.refl s, .refl s⟩

theorem State.Settled.next {s t u : State} (h : s.Settled t) (hc : t.changes u) (ho : t.Orderly u) : s.Settled u :=
  ⟨h.1.trans hc, h.2.trans h.1 ho⟩

theorem State.commandStep_orderly (s : State) : s.Orderly s.commandStep := by
  unfold State.commandStep
  split
  · exact s.walkStep_orderly
  · exact s.take_orderly _ fun p c => takeOf_orderly (byteAt c 0) p c

theorem State.tickWalk_settled (s : State) : s.Settled s.tickWalk := by
  unfold State.tickWalk
  split
  · exact .refl s
  · rename_i w _
    refine State.overdueWalk_keeps (law := s.Settled) (fun t h => h.next t.walkStep_changes t.walkStep_orderly) _ _ ?_
    exact (State.Settled.refl s).next (State.changes_of_use_eq rfl) (State.orderly_of_stage rfl)

theorem State.takeOverdue_settled (s : State) : s.Settled s.takeOverdue := by
  unfold State.takeOverdue
  split
  · exact s.tickWalk_settled
  · exact State.finishSweep_keeps (law := s.Settled) (fun t h => h.next t.commandStep_changes t.commandStep_orderly)
      (fun t h => h.next t.sweepStep_changes t.sweepStep_orderly) s.tickWalk_settled

end Sys2Proof.Machine

namespace Sys2Proof.Machine

/-! # Every command keeps the bus and asks for every yield

Where the pending order or the holder changes, a command is regular: it keeps a sound bus with its own list of cycles,
and leaves no yield condition unasked. -/

/-- A sound bus stays sound, and with a configuration in range, sound records and sound handles no yield condition goes
unasked. -/
structure State.Regular (s t : State) : Prop where
  bus : s.bus.sound s.cycles → t.bus.sound t.cycles
  asked : frameInRange s.config = true → s.recordsSound → s.handlesSound → s.yieldsAsked → t.yieldsAsked

theorem State.Orderly.regular {s t : State} (h : s.Orderly t) : s.Regular t :=
  ⟨fun hs => h.cycles ▸ h.sound _ hs, fun _ => h.asked⟩

theorem State.regular_of_stage {s t : State} (h : t.stage = s.stage) : s.Regular t := (State.orderly_of_stage h).regular

/-- A regular event after a chain of orderly ones that leaves the configuration. -/
theorem State.Settled.regular {s t u : State} (h : s.Settled t) (hc : t.config = s.config) (hr : t.Regular u) :
    s.Regular u where
  bus hs := hr.bus (h.2.regular.bus hs)
  asked hf hrec hh hy :=
    hr.asked (hc ▸ hf) (h.1.recordsSound hrec) (h.1.handlesSound hh) (h.2.asked hrec hh hy)

theorem State.Regular.aside {s t u : State} (h : s.Regular t) (e : u.stage = t.stage) : s.Regular u where
  bus hs := (State.regular_of_stage e).bus (h.bus hs)
  asked hf hr hh hy := (h.asked hf hr hh hy).of_contest (State.views_of_stage e).2.2

/-! ## The end of a tenure -/

theorem State.bus_turn_eq_none (s : State) : s.bus.turn = none ↔ s.tenure = none := Option.map_eq_none_iff

theorem State.bus_holder_of_tenure (s : State) (t : Tenure) (h : s.tenure = some t) : s.bus.holder = some t.holder := by
  rw [s.bus_holder, State.holder, h]
  rfl

/-- The tenure of the holder ended, and nothing else of the bus changed (R97). -/
theorem State.regular_of_release {s u : State} (t : Tenure) (x : PortState) (ht : s.tenure = some t)
    (hx : x.holdsBus = false) (hw : x ≠ .waiting) (hf : x = .fenced → t.holder ≠ s.supervisor)
    (hb : u.bus = s.bus.release t.holder x) (hc : u.cycles = []) : s.Regular u where
  bus h := by
    rw [hb, hc]
    exact h.release (s.bus_holder_of_tenure t ht) hx hw hf
  asked _ _ _ _ := by
    have gone : u.bus.turn = none := by rw [hb]; rfl
    exact State.yieldsAsked_of_no_tenure (u.bus_turn_eq_none.1 gone)

theorem State.endTenure_regular (s : State) (t : Tenure) (x : PortState) (ht : s.tenure = some t)
    (hx : x.holdsBus = false) (hw : x ≠ .waiting) (hf : x = .fenced → t.holder ≠ s.supervisor) :
    s.Regular (s.endTenure t.holder x) :=
  State.regular_of_release t x ht hx hw hf (s.bus_endTenure _ x) (s.endTenure_cycles _ x)

/-- The tenure of the holder ended, and its port record written with that state (R114, R117, R118). -/
theorem State.endTenure_setPort_regular (s : State) (t : Tenure) (x : PortState) (r : PortRecord) (hr : r.state = x)
    (ht : s.tenure = some t) (hx : x.holdsBus = false) (hw : x ≠ .waiting) (hf : x = .fenced → t.holder ≠ s.supervisor) :
    s.Regular ((s.endTenure t.holder x).setPort t.holder r) := by
  have state : ((s.endTenure t.holder x).port t.holder).state = x :=
    congrArg PortRecord.state (bankGet_bankSet_self s.ports t.holder { s.port t.holder with state := x })
  refine State.regular_of_release t x ht hx hw hf ?_ (s.endTenure_cycles t.holder x)
  rw [State.bus_setPort_same _ _ r (hr.trans state.symm), s.bus_endTenure]

theorem State.expireDrain_regular (s : State) (t : Tenure) (ht : s.tenure = some t) :
    s.Regular (s.expireDrain t.holder) :=
  s.endTenure_setPort_regular t .idle
    { (s.endTenure t.holder .idle).port t.holder with lastYield := .cut } (by simp [State.port, State.endTenure]) ht rfl nofun nofun

theorem State.forceWithdrawal_regular (s : State) (t : Tenure) (ht : s.tenure = some t) :
    s.Regular (s.forceWithdrawal t.holder) :=
  State.Regular.aside
    (s.endTenure_setPort_regular t .idle _ (by simp [State.port, State.endTenure]) ht rfl nofun nofun)
    (State.stage_place _ _ _ _)

/-- With no tenure the records bear on neither the bus nor a yield. -/
theorem State.Regular.setTable {s t : State} (h : s.Regular t) (v : Vector TableRecord 32) (ht : t.tenure = none) :
    s.Regular { t with table := v } :=
  ⟨h.bus, fun _ _ _ _ => State.yieldsAsked_of_no_tenure ht⟩

theorem State.fencePort_regular (s : State) (t : Tenure) (ht : s.tenure = some t) (hs : t.holder ≠ s.supervisor) :
    s.Regular (s.fencePort t.holder) := by
  have ended := s.endTenure_setPort_regular t .fenced
    { (s.endTenure t.holder .fenced).port t.holder with
      fenceCount := min 15 (((s.endTenure t.holder .fenced).port t.holder).fenceCount + 1) }
    (by simp [State.port, State.endTenure]) ht rfl nofun fun _ => hs
  exact (ended.setTable _ rfl).aside ((State.stage_place _ _ _ _).trans (State.stage_place _ _ _ _))

theorem State.expireGrace_regular (s : State) (t : Tenure) (ht : s.tenure = some t) :
    s.Regular (s.expireGrace t.holder) := by
  unfold State.expireGrace
  split
  · exact s.forceWithdrawal_regular t ht
  · rename_i hs
    exact s.fencePort_regular t ht hs

/-- The grace that a tick takes to 0 is the holder's (R116). -/
theorem State.graceDue_holder (s : State) (p : Port) (h : s.graceDue = some p) :
    ∃ t, s.tenure = some t ∧ t.holder = p := by
  unfold State.graceDue at h
  split at h
  · cases h
  · rename_i t ht
    split at h
    · exact ⟨t, ht, Option.some.inj h⟩
    · cases h

/-- The drain that a tick takes to 0 is the holder's (R114). -/
theorem State.drainDue_holder (s : State) (p : Port) (h : s.drainDue = some p) :
    ∃ t, s.tenure = some t ∧ t.holder = p := by
  unfold State.drainDue at h
  split at h
  · cases h
  · rename_i t ht
    split at h
    · exact ⟨t, ht, Option.some.inj h⟩
    · cases h

/-! ## The Tenure Monitor's tick -/

theorem State.idleTick_orderly (s : State) : s.Orderly s.idleTick := by
  refine ⟨s.idleTick_keepsBus, fun _ _ hy => ?_⟩
  unfold State.idleTick
  split
  · exact hy
  · split
    · exact State.testYield_yieldsAsked _
    · exact hy

/-- A tenure whose counts move while its holder is not GRANTED. -/
theorem State.setTenure_orderly (s : State) (t t' : Tenure) (ht : s.tenure = some t) (h : t'.turn = t.turn)
    (hg : (s.port t.holder).state ≠ .granted) : s.Orderly (s.setTenure (some t')) := by
  refine ⟨s.setTenure_keepsBus t t' ht h, fun _ _ _ => State.yieldsAsked_of_not_granted fun u hu => ?_⟩
  cases hu
  have holder : t'.holder = t.holder := congrArg Turn.holder h
  rw [holder]
  exact hg

/-- A grace and a drain counted down are present as before (R114, R116). -/
theorem State.raiseIdle_count_turn (s : State) (t : Tenure) :
    { s.raiseIdle t with graceRemaining := t.graceRemaining.map (· - 1) }.turn = t.turn ∧
      { s.raiseIdle t with drainRemaining := t.drainRemaining.map (· - 1) }.turn = t.turn := by
  unfold State.raiseIdle
  split <;> simp [Tenure.turn]

theorem State.tenureTick_regular (s : State) : s.Regular s.tenureTick := by
  unfold State.tenureTick
  split
  · rename_i p hg
    obtain ⟨t, ht, rfl⟩ := s.graceDue_holder p hg
    exact s.expireGrace_regular t ht
  · rename_i p _ hd
    obtain ⟨t, ht, rfl⟩ := s.drainDue_holder p hd
    exact s.expireDrain_regular t ht
  · exact (State.Orderly.refl s).regular
  · rename_i t _ _ ht
    obtain ⟨grace, drain⟩ := s.raiseIdle_count_turn t
    split
    · rename_i hst
      exact (s.setTenure_orderly t _ ht grace (by rw [hst]; decide)).regular
    · rename_i hst
      exact (s.setTenure_orderly t _ ht drain (by rw [hst]; decide)).regular
    · exact s.idleTick_orderly.regular

/-! ## Requests -/

theorem State.setEntry_tested (s : State) (p : Port) (e : Option WaitingEntry) (x : PortState)
    (he : e.isSome = decide (x = .waiting)) (hp : (s.port p).state.holdsBus = false) (hx : x.holdsBus = false)
    (hf : x ≠ .fenced) : s.Orderly ((s.setWaiting p e).setPortState p x).testYield :=
  (s.setEntry_keepsBus p e x he hp hx hf).tested

/-- The release of the holder with a cycle outstanding: it is DRAINING, with the drain timed (R111, R113). -/
theorem State.drain_regular (s : State) (t : Tenure) (g : Nat) (ht : s.tenure = some t) (hc : s.cycles ≠ []) :
    s.Regular ((s.setTenure (some { t with graceRemaining := none, tenureG := some g, drainRemaining := some g })).setPortState
      t.holder .draining) where
  bus h := by
    rw [State.bus_setPortState]
    exact h.hold { t.turn with timed := true, graced := false, drained := true }
      (.inl (s.bus_holder_of_tenure t ht)) ⟨rfl, rfl, rfl, hc⟩
  asked _ _ _ _ := State.yieldsAsked_of_not_granted fun u hu => by
    cases hu
    simp [State.port_setPortState]

theorem State.releaseBus_regular (s : State) (p : Port) : s.Regular (s.releaseBus p) := by
  unfold State.releaseBus
  split
  · exact (State.Orderly.refl s).regular
  · rename_i t ht
    split
    · rename_i hp
      subst hp
      split
      · exact s.endTenure_regular t .idle ht rfl nofun nofun
      · rename_i hc
        exact s.drain_regular t _ ht (by simpa using hc)
    · exact (State.Orderly.refl s).regular

theorem State.requestFalls_regular (s : State) (p : Port) : s.Regular (s.requestFalls p) := by
  have level : s.Settled { s with req := bankSet s.req p false } :=
    ⟨State.changes_of_use_eq rfl, State.orderly_of_stage rfl⟩
  simp only [State.requestFalls]
  split
  · exact level.2.regular
  · split
    · rename_i hst
      refine level.regular rfl (State.setEntry_tested _ p none .idle rfl ?_ rfl nofun).regular
      change (s.port p).state.holdsBus = false
      rw [hst]; rfl
    · exact level.regular rfl (State.releaseBus_regular _ p)
    · exact level.regular rfl (State.releaseBus_regular _ p)
    all_goals exact level.2.regular

/-! ## Readies and strobes -/

theorem State.windowStore_port (s : State) (p q : Port) (o : Nat) (d : Byte) :
    ((s.windowStore p o d).port q).state = (s.port q).state := by
  unfold State.windowStore
  split
  · split
    · rfl
    · unfold State.triggerSlot
      split <;> rfl
  · split
    · rfl
    · split
      · simp only [State.writeControl, State.port_setPort]
        split
        · rename_i h; rw [h]
        · rfl
      · rfl

/-- A window effect of a ready reaches neither the bus nor the contest nor the pending order (R140). -/
theorem State.windowEffect_keepsBus (s : State) (x : Option WindowAccess) (d : Byte) :
    s.KeepsBus (s.windowEffect x d) := by
  have states : ∀ q, ((s.windowEffect x d).port q).state = (s.port q).state := by
    intro q
    unfold State.windowEffect
    split
    · rfl
    · rename_i a
      split
      · exact s.windowStore_port a.port q a.offset.toNat d
      · obtain ⟨_, _, _, _, e⟩ := s.windowRead_frame a.port a.offset.toNat
        rw [e]; rfl
  have rest : (s.windowEffect x d).pendingOrder = s.pendingOrder ∧ (s.windowEffect x d).waiting = s.waiting ∧
      (s.windowEffect x d).supervisor = s.supervisor ∧ (s.windowEffect x d).tenure = s.tenure := by
    obtain ⟨_, _, _, _, _, _, _, _, e⟩ := s.windowEffect_frame x d
    rw [e]
    exact ⟨rfl, rfl, rfl, rfl⟩
  obtain ⟨order, waiting, supervisor, tenure⟩ := rest
  refine .of_eq order ?_
  simp only [State.bus, states, waiting, supervisor, tenure]

/-- A charge tests the conditions last, if a tenure is in progress (R101, R106). -/
theorem State.charge_yieldsAsked (s : State) (cost : Nat) : (s.charge cost).yieldsAsked := by
  unfold State.charge
  split
  · rename_i ht; exact State.yieldsAsked_of_no_tenure ht
  · dsimp only
    split <;> exact State.testYield_yieldsAsked _

/-- A ready that takes the oldest cycle out of the list completes a drain whose list is then empty (R113). -/
theorem State.finishDrain_sound (s : State) (c : Cycle) (h : s.bus.sound (c :: s.cycles)) :
    s.finishDrain.bus.sound s.finishDrain.cycles := by
  have sound (drains : ∀ t, s.tenure = some t → (s.port t.holder).state = .draining → s.cycles ≠ []) :
      s.bus.sound s.cycles := by
    refine ⟨h.holds, fun x hx => ?_, h.listed.tail, h.fenced, h.waiting⟩
    obtain ⟨t, ht, rfl⟩ := Option.map_eq_some_iff.1 hx
    exact (h.fits _ hx).of_list (drains t ht)
  unfold State.finishDrain
  split
  · rename_i ht; exact sound fun t e => by rw [ht] at e; cases e
  · rename_i t ht
    split
    · rw [s.bus_endTenure, s.endTenure_cycles]
      exact h.release (s.bus_holder_of_tenure t ht) rfl nofun nofun
    · rename_i hn
      refine sound fun u hu hst he => hn ?_
      cases ht.symm.trans hu
      exact ⟨hst, by simp [he]⟩

theorem State.finishDrain_yieldsAsked (s : State) (h : s.yieldsAsked) : s.finishDrain.yieldsAsked := by
  unfold State.finishDrain
  split
  · exact h
  · split
    · exact State.yieldsAsked_of_no_tenure rfl
    · exact h

theorem State.readyEvent_regular (s : State) (d : Byte) : s.Regular (s.readyEvent d) := by
  by_cases due : ∃ c rest, s.completes c rest
  · obtain ⟨c, rest, due⟩ := due
    rw [s.readyEvent_completes c rest due]
    have effect := s.windowEffect_keepsBus c.access d
    have charged := State.charge_keepsBus { s.windowEffect c.access d with pendingOrder := rest } c.cost
    refine ⟨fun h => State.finishDrain_sound _ c (charged.sound _ (effect.sound _ ?_)), fun _ _ _ _ =>
      State.finishDrain_yieldsAsked _ (State.charge_yieldsAsked _ _)⟩
    rw [charged.cycles]
    have list : s.cycles = c :: State.cycles { s.windowEffect c.access d with pendingOrder := rest } := by
      simp [State.cycles, due.2.1, Strobe.cycle?]
    rwa [← list]
  · unfold State.readyEvent
    split
    · exact (State.Orderly.refl s).regular
    · rename_i hr
      split
      · exact State.regular_of_stage rfl
      · rename_i rest ho
        refine ⟨fun h => ?_, fun _ _ _ hy => hy⟩
        have list : State.cycles { s with pendingOrder := rest, driven := none } = s.cycles := by
          simp [State.cycles, ho, Strobe.cycle?, List.filterMap_cons]
        rw [list]
        exact h
      · rename_i c rest ho
        split
        · rename_i ht
          refine ⟨fun h => ?_, fun _ _ _ hy => hy⟩
          have none := h.no_cycles (Option.map_eq_none_iff.2 (s.bus_turn_eq_none.2 ht))
          simp [State.cycles, ho, Strobe.cycle?] at none
        · rename_i t ht
          exact absurd ⟨c, rest, by simpa using hr, ho, by simp [ht]⟩ due

theorem State.readyOf_regular (s : State) (is : WindowAccess → Bool) (d : Byte) : s.Regular (s.readyOf is d) := by
  unfold State.readyOf
  split
  · split
    · exact s.readyEvent_regular d
    · exact (State.Orderly.refl s).regular
  · exact s.readyEvent_regular d

/-- A strobe outside the list leaves it (R99). -/
theorem State.strayStrobe_regular (s : State) : s.Regular { s with pendingOrder := s.pendingOrder ++ [.stray] } where
  bus h := by
    have list : State.cycles { s with pendingOrder := s.pendingOrder ++ [.stray] } = s.cycles := by
      simp [State.cycles, Strobe.cycle?]
    rw [list]
    exact h
  asked _ _ _ hy := hy

/-- A strobe of the tenure joins the list with a window mark of the holder (R98, R140). -/
theorem State.cycleStrobe_regular (s : State) (t : Tenure) (c : Cycle) (ht : s.tenure = some t)
    (few : s.cycles.length < 2) (cost : c.cost = 1 ∨ c.cost = 2) (mark : ∀ a, c.access = some a → a.port = t.holder) :
    s.Regular { s with pendingOrder := s.pendingOrder ++ [.cycle c] } where
  bus h := by
    have list : State.cycles { s with pendingOrder := s.pendingOrder ++ [.cycle c] } = s.cycles ++ [c] := by
      simp [State.cycles, Strobe.cycle?]
    have holder := s.bus_holder_of_tenure t ht
    rw [list]
    refine ⟨h.holds, fun x hx => ?_, ?_, h.fenced, h.waiting⟩
    · exact (h.fits x hx).of_list fun _ => by simp
    · have listed := h.listed
      rw [holder] at listed
      change Listed s.bus.holder _
      rw [holder]
      exact listed.push c few cost mark
  asked _ _ _ hy := hy

theorem State.windowMark_port (s : State) (a : Address) (w : Bool) (p : Port) (x : WindowAccess)
    (h : s.windowMark a w p = some x) : x.port = p := by
  unfold State.windowMark at h
  split at h
  · cases h; rfl
  · cases h

end Sys2Proof.Machine

namespace Sys2Proof.Machine

/-! ## Pins, reset and detach -/

/-- A bus with no tenure, no pending order and no entry, on which every port is DETACHED or IDLE (R125). -/
theorem State.regular_of_abandoned (s u : State) (ht : u.tenure = none) (ho : u.pendingOrder = [])
    (hw : ∀ p, bankGet u.waiting p = none) (hst : ∀ p, (u.port p).state = .detached ∨ (u.port p).state = .idle) :
    s.Regular u where
  bus _ := by
    have turn := u.bus_turn_eq_none.2 ht
    have cycles : u.cycles = [] := by simp [State.cycles, ho]
    rw [cycles]
    refine ⟨fun p => ?_, fun x hx => (Option.some_ne_none x (hx.symm.trans turn)).elim, .nil _, fun p hp => ?_, fun p => ?_⟩
    · simp only [Bus.holder, turn, Option.map_none, reduceCtorEq, iff_false]
      change ¬(u.port p).state.holdsBus = true
      obtain h | h := hst p <;> rw [h] <;> decide
    · change (u.port p).state = _ at hp
      obtain h | h := hst p <;> exact absurd (h.symm.trans hp) nofun
    · simp only [State.bus, hw, Option.isSome_none, Bool.false_eq_true, false_iff]
      obtain h | h := hst p <;> rw [h] <;> decide
  asked _ _ _ _ := State.yieldsAsked_of_no_tenure ht

theorem State.powerOn_regular (s : State) : s.Regular s.powerOn :=
  s.regular_of_abandoned _ rfl rfl (bankGet_replicate _) fun p => .inl (congrArg PortRecord.state (bankGet_replicate _ p))

theorem State.makeEntry_orderly (s : State) (p : Port) (hp : (s.port p).state.holdsBus = false) :
    s.Orderly (s.makeEntry p) := s.setEntry_tested p _ .waiting rfl hp rfl nofun

theorem State.retireOwned_keepsBus (s : State) (p : Port) : s.KeepsBus (s.retireOwned p) := by
  unfold State.retireOwned
  generalize allSlots = l
  induction l generalizing s with
  | nil => exact .refl s
  | cons k l ih =>
    rw [List.foldl_cons]
    split
    · exact (s.retireRecord_keepsBus k).trans (ih _)
    · exact ih s

theorem State.unbindAll_keepsBus (s : State) (p : Port) : s.KeepsBus (s.unbindAll p) := .of_eq rfl rfl

theorem State.detachCommands_keepsBus (s : State) (p : Port) : s.KeepsBus (s.detachCommands p) := .of_eq rfl rfl

theorem State.detachNotices_keepsBus (s : State) (p : Port) : s.KeepsBus (s.detachNotices p) := by
  simp only [State.detachNotices]
  split
  · exact .of_eq rfl rfl
  · have emptied : s.KeepsBus ((s.setNotices p NoticeSet.initial).setLatch p Latch.initial) := .of_eq rfl rfl
    exact emptied.trans (State.orderly_of_stage (State.stage_place _ _ _ _)).toKeepsBus

/-- The tenure of the port ended, its entry removed, the port DETACHED (R120, R129). -/
theorem State.detachStart_sound (s : State) (p : Port) (h : s.bus.sound s.cycles) :
    (((s.detachTenure p).setWaiting p none).setPortState p .detached).bus.sound
      (((s.detachTenure p).setWaiting p none).setPortState p .detached).cycles := by
  rw [State.bus_setEntry _ p none .detached rfl]
  change ((s.detachTenure p).bus.move p .detached).sound (s.detachTenure p).cycles
  unfold State.detachTenure
  split
  · rename_i ht
    refine h.move ?_ rfl nofun
    rw [s.bus_holder, State.holder, ht]
    nofun
  · rename_i t ht
    have holder := s.bus_holder_of_tenure t ht
    split
    · rename_i hp
      rw [s.bus_endTenure, s.endTenure_cycles]
      exact (h.release (x := .detached) (hp ▸ holder) rfl nofun nofun).move nofun rfl nofun
    · rename_i hp
      refine h.move ?_ rfl nofun
      rw [holder]
      exact fun e => hp (Option.some.inj e)

theorem State.detachPort_regular (s : State) (p : Port) : s.Regular (s.detachPort p) where
  bus h := by
    have start := s.detachStart_sound p h
    unfold State.detachPort
    generalize ((s.detachTenure p).setWaiting p none).setPortState p .detached = u at start
    have kept := (u.retireOwned_keepsBus p).trans ((State.unbindAll_keepsBus _ p).trans
      ((State.detachCommands_keepsBus _ p).trans ((State.detachNotices_keepsBus _ p).trans (State.testYield_keepsBus _))))
    rw [kept.cycles]
    exact kept.sound _ start
  asked _ _ _ _ := State.testYield_yieldsAsked _

/-! ## The grant -/

/-- The tenure that a grant opens (R91). -/
def State.opened (s : State) (p : Port) : Tenure :=
  { holder := p, drawing := s.grantDrawing p, standing := (s.competitorTier p).getD .three, usage := 0, idleTicks := 0
    idleLimit := s.config.idle, spareLimit := s.config.spare, yield := none, tenureG := none, graceRemaining := none
    drainRemaining := none }

/-- The port of the entry leaves the waiting set and then holds the bus. -/
theorem State.bus_grant (s : State) (g : Group) (p : Port) :
    (s.grant g p).bus = (s.bus.move p .idle).hold .granted (s.opened p).turn := by
  refine Bus.ext (funext fun q => ?_) (funext fun q => ?_) rfl rfl
  · by_cases hq : q = p <;>
      simp [State.bus, State.grant, State.port, State.opened, Tenure.turn, bankGet_bankSet, hq]
  · by_cases hq : q = p <;> simp [State.bus, State.grant, bankGet_bankSet, hq]

/-- A competitor that a grant leaves waiting was one before it. -/
theorem State.grant_competitorTier (s : State) (g : Group) (p q : Port) (x : Tier)
    (h : (s.grant g p).competitorTier q = some x) : s.competitorTier q = some x := by
  by_cases hq : q = p
  · simp [State.competitorTier, State.portRank, State.grant, hq] at h
  · have waiting : bankGet (s.grant g p).waiting q = bankGet s.waiting q := bankGet_bankSet_ne _ hq _
    unfold State.competitorTier State.portRank at h
    rw [waiting] at h
    exact h

/-- A group's tier is not preempted by that of a later one (R87, R106). -/
theorem tierOf_first (g g' : Group) (h : g ≤ g') :
    (tierOf g' = .one → tierOf g = .one) ∧ (tierOf g' = .two → tierOf g ≠ .three) := by
  revert g g'
  decide

/-- No competitor that a grant leaves waiting preempts the tenure it opens (R87, R106). -/
theorem State.grant_preempts (s : State) (g : Group) (p : Port) (hd : s.decision = some (g, p)) :
    (s.grant g p).preempts (s.opened p).standing = false := by
  obtain ⟨won, first⟩ := (s.decision_eq_some g p).1 hd
  have standing : (s.opened p).standing = tierOf g := by
    simp [State.opened, s.competitorTier_eq, s.groupOf_of_groupWinner g p won]
  have waits (x : Tier) (hx : (s.grant g p).competitorAt x = true) : ∃ g', g ≤ g' ∧ tierOf g' = x := by
    simp only [State.competitorAt, List.any_eq_true, decide_eq_true_eq] at hx
    obtain ⟨q, -, hq⟩ := hx
    have before := s.grant_competitorTier g p q x hq
    rw [s.competitorTier_eq, Option.map_eq_some_iff] at before
    exact before.imp fun g' hg => ⟨first q g' hg.1, hg.2⟩
  rw [standing, Bool.eq_false_iff]
  simp only [State.preempts, ne_eq, Bool.or_eq_true, Bool.and_eq_true, decide_eq_true_eq]
  rintro (⟨lower, hx⟩ | ⟨lower, hx⟩)
  · obtain ⟨g', le, tier⟩ := waits .one hx
    exact lower ((tierOf_first g g' le).1 tier)
  · obtain ⟨g', le, tier⟩ := waits .two hx
    exact (tierOf_first g g' le).2 tier lower

/-- No limit is reached by a tenure just opened: every limit is at least 1 (R1, R46). -/
theorem State.grant_limits (s : State) (g : Group) (p : Port) (hf : frameInRange s.config = true)
    (hr : s.recordsSound) : (s.grant g p).limitReached (s.opened p) = false ∧ (s.opened p).idleTicks < (s.opened p).idleLimit := by
  obtain ⟨-, -, -, -, ⟨idle, -⟩, spare, -⟩ := (frameInRange_iff s.config).1 hf
  refine ⟨?_, idle⟩
  unfold State.limitReached
  split
  · exact decide_eq_false (Nat.not_le.2 spare)
  · rw [Bool.eq_false_iff]
    simp only [ne_eq, Option.any_eq_true, decide_eq_true_eq, not_exists, not_and]
    intro r hr' le
    obtain ⟨h, -, hfresh⟩ := Option.bind_eq_some_iff.1 hr'
    have fresh : s.fresh h = some r := hfresh
    obtain ⟨-, -, ⟨positive, -⟩, -⟩ := hr h.slot r (s.liveAt_of_fresh h r fresh).2
    exact Nat.not_succ_le_zero 0 (positive.trans le)

theorem State.grant_regular (s : State) (g : Group) (p : Port) (hfree : s.busFree = true)
    (hd : s.decision = some (g, p)) : s.Regular (s.grant g p) where
  bus h := by
    have free := s.busFree_iff.1 hfree
    have none : s.bus.holder = none := by
      rw [Option.eq_none_iff_forall_ne_some]
      intro q hq
      have holds : (s.port q).state.holdsBus = true := (h.holds q).2 hq
      rw [free q] at holds
      cases holds
    rw [s.bus_grant]
    refine (h.move (x := .idle) (by rw [none]; nofun) rfl nofun).hold (x := .granted) (s.opened p).turn
      (.inr ⟨none, ?_⟩) ⟨rfl, rfl, rfl, rfl⟩
    change (s.bus.move p .idle).waits p = false
    simp
  asked hf hr _ _ := by
    intro t ht _
    cases ht
    obtain ⟨limit, idle⟩ := s.grant_limits g p hf hr
    change (s.grant g p).yieldCondition (s.opened p) = none
    simp only [State.yieldCondition, s.grant_preempts g p hd, limit, decide_eq_false (Nat.not_le.2 idle), Bool.and_false]
    rfl

/-! ## Every command -/

theorem State.Regular.next {s t : State} (h : s.Regular t) : GoesOnWith s.Regular (.next t) := ⟨t, rfl, h⟩

/-- An event that arises only under a condition, and changes nothing where it does not arise (log entry 2). -/
theorem State.Regular.unless {s t : State} (c : Prop) [Decidable c] (h : s.Regular t) :
    GoesOnWith s.Regular (if c then .next s else .next t) := by
  split
  · exact (State.Orderly.refl s).regular.next
  · exact h.next

theorem execResetRelease_regular (sup : Port) (wb : BitVec 4) (s : State) :
    GoesOnWith s.Regular (execResetRelease sup wb s) := by
  unfold execResetRelease
  split
  · refine (s.regular_of_abandoned _ rfl rfl (bankGet_replicate _) fun p => ?_).next
    simp only [State.port, bankGet_bankMap]
    cases bankGet s.pres p
    · exact .inl rfl
    · exact .inr rfl
  · exact (State.Orderly.refl s).regular.next

theorem execAttach_regular (p : Port) (s : State) : GoesOnWith s.Regular (execAttach p s) := by
  have level : s.Settled { s with pres := bankSet s.pres p true } :=
    ⟨State.changes_of_use_eq rfl, State.orderly_of_stage rfl⟩
  simp only [execAttach]
  split
  · exact level.2.regular.next
  · split
    · rename_i hst
      refine (level.regular rfl (State.Orderly.regular ⟨State.setPort_keepsBus _ p _ ?_ ?_ rfl (by decide) (by decide),
        fun _ _ hy => hy.setPort p _ (by decide)⟩)).next
      · change (s.port p).state.holdsBus = false
        rw [hst]; rfl
      · change (s.port p).state ≠ .waiting
        rw [hst]; nofun
    · exact level.2.regular.next

theorem execDetach_regular (p : Port) (s : State) : GoesOnWith s.Regular (execDetach p s) := by
  have level : s.Settled { s with pres := bankSet s.pres p false } :=
    ⟨State.changes_of_use_eq rfl, State.orderly_of_stage rfl⟩
  simp only [execDetach]
  split
  · exact level.2.regular.next
  · split
    · exact level.2.regular.next
    · exact (level.regular rfl (State.detachPort_regular _ p)).next

theorem execRequest_regular (p : Port) (c : SelCode) (s : State) : GoesOnWith s.Regular (execRequest p c s) := by
  have level : s.Settled { s with sel := bankSet s.sel p c, req := bankSet s.req p true } :=
    ⟨State.changes_of_use_eq rfl, State.orderly_of_stage rfl⟩
  simp only [execRequest]
  split
  · exact level.2.regular.next
  · split
    · rename_i hst
      refine (level.regular rfl (State.makeEntry_orderly _ p ?_).regular).next
      change (s.port p).state.holdsBus = false
      rw [hst]; rfl
    · exact level.2.regular.next

theorem execAddressStrobe_regular (a : Address) (w : Bool) (s : State) :
    GoesOnWith s.Regular (execAddressStrobe a w s) := by
  unfold execAddressStrobe
  split
  · exact (State.Orderly.refl s).regular.next
  · split
    · rename_i t ht hl
      exact (s.cycleStrobe_regular t _ ht (by omega) (.inr rfl) (s.windowMark_port a w t.holder)).next
    · rename_i t ht hl
      exact (s.cycleStrobe_regular t _ ht (by omega) (.inl rfl) (s.windowMark_port a w t.holder)).next
    · exact s.strayStrobe_regular.next

theorem execGrantDecision_regular (s : State) : GoesOnWith s.Regular (execGrantDecision s) := by
  unfold execGrantDecision
  split
  · exact (State.Orderly.refl s).regular.next
  · rename_i due
    split
    · exact (State.Orderly.refl s).regular.next
    · rename_i g p hd
      exact (s.grant_regular g p (by simpa using (not_or.1 due).2) hd).next

theorem execGraceExpiry_regular (s : State) : GoesOnWith s.Regular (execGraceExpiry s) := by
  unfold execGraceExpiry
  split
  · rename_i p _ hg
    obtain ⟨t, ht, rfl⟩ := s.graceDue_holder p hg
    exact (s.expireGrace_regular t ht).next
  · exact (State.Orderly.refl s).regular.next

theorem execDrainExpiry_regular (s : State) : GoesOnWith s.Regular (execDrainExpiry s) := by
  unfold execDrainExpiry
  split
  · rename_i p _ hd
    obtain ⟨t, ht, rfl⟩ := s.drainDue_holder p hd
    exact (s.expireDrain_regular t ht).next
  · exact (State.Orderly.refl s).regular.next

/-- A tick is the overdue events, the Tenure Monitor's tick and the Frame Timer's (R49). -/
theorem State.tick_regular (s : State) : s.Regular s.takeOverdue.tenureTick.frameTick := by
  have config : s.takeOverdue.config = s.config := congrArg Steady.config s.steady_takeOverdue
  refine (s.takeOverdue_settled.regular config (State.tenureTick_regular _)).aside ?_
  unfold State.frameTick
  split <;> rfl

theorem exec_regular (i : Instr) (s : State) : GoesOnWith s.Regular (exec i s) := by
  have taken {body : Port → Vector Byte 16 → State → State} (isCode : Byte → Bool) (hb : TakeOrderly body) :
      GoesOnWith s.Regular (.next (s.take isCode body)) := (s.take_orderly isCode hb).regular.next
  cases i with
  | resetAssert => exact s.powerOn_regular.next
  | resetRelease sup wb => exact execResetRelease_regular sup wb s
  | attach p => exact execAttach_regular p s
  | detach p => exact execDetach_regular p s
  | request p c => exact execRequest_regular p c s
  | withdrawal p => exact (s.requestFalls_regular p).next
  | release p => exact (s.requestFalls_regular p).next
  | addressStrobe a w => exact execAddressStrobe_regular a w s
  | ready d => exact (s.readyEvent_regular d).next
  | idleLimit => exact State.Regular.unless _ s.idleTick_orderly.regular
  | graceExpiry => exact execGraceExpiry_regular s
  | drainExpiry => exact execDrainExpiry_regular s
  | boundary => exact State.Regular.unless _ (s.takeOverdue_settled.2.aside (u := s.takeOverdue.boundaryEvent) rfl).regular
  | sweepVisit => exact State.Regular.unless _ s.sweepStep_orderly.regular
  | grantDecision => exact execGrantDecision_regular s
  | trigger v => exact (s.readyOf_regular _ v).next
  | windowWrite v => exact (s.readyOf_regular _ v).next
  | portControlWrite v => exact (s.readyOf_regular _ v).next
  | noticeTake => exact (s.readyOf_regular _ 0).next
  | timeSnapshot => exact (s.readyOf_regular _ 0).next
  | takeBadCommand => exact taken _ badTake_orderly
  | takeOpen => exact taken _ openTake_orderly
  | takeModify => exact taken _ modifyTake_orderly
  | takeRenew => exact taken _ renewTake_orderly
  | takeClose => exact taken _ closeTake_orderly
  | takeBind => exact taken _ bindTake_orderly
  | takeUnbind => exact taken _ unbindTake_orderly
  | takeQuery => exact taken _ queryTake_orderly
  | takeList => exact taken _ listTake_orderly
  | listVisit => exact State.Regular.unless _ s.walkStep_orderly.regular
  | takeOpenFor => exact taken _ openForTake_orderly.supervisorOnly
  | takeRevoke => exact taken _ revokeTake_orderly.supervisorOnly
  | takeSuspend => exact taken _ suspendTake_orderly.supervisorOnly
  | takeResume => exact taken _ resumeTake_orderly.supervisorOnly
  | takeDemote => exact taken _ demoteTake_orderly.supervisorOnly
  | takeClearFence => exact taken _ clearFenceTake_orderly.supervisorOnly
  | takeSetFrame => exact taken _ setFrameTake_orderly.supervisorOnly
  | takeResetTable => exact taken _ resetTableTake_orderly.supervisorOnly
  | resetTableVisit => exact State.Regular.unless _ s.walkStep_orderly.regular
  | takeQueryPort => exact taken _ queryPortTake_orderly.supervisorOnly
  | tick => exact State.Regular.unless _ s.tick_regular

theorem step_regular (s t : State) (h : step s = .next t) : s.Regular t := by
  unfold step at h
  split at h
  · cases h
    exact (State.Orderly.refl s).regular
  · rename_i i rest _
    obtain ⟨u, hu, hr⟩ := exec_regular i { s with pending := rest }
    cases hu.symm.trans h
    exact ⟨hr.bus, hr.asked⟩

/-! ## The output lines -/

theorem PortState.holdsBus_iff (x : PortState) : x.holdsBus = true ↔ x ∈ [PortState.granted, .yielding, .draining] := by
  cases x <;> decide

theorem NoticeSet.nonempty_iff (n : NoticeSet) : n.nonempty = true ↔ n.entries ≠ [] ∨ n.overrun = true := by
  simp [NoticeSet.nonempty]

theorem State.yldLine_iff (s : State) (p : Port) :
    s.yldLine p = true ↔ s.rstLow = false ∧ ∃ t, s.tenure = some t ∧ t.holder = p ∧ t.yield ≠ none := by
  simp [State.yldLine, Option.any_eq_true, Option.isSome_iff_ne_none]

/-- On a sound bus GNT is the holder's alone, and YLD is its as well (R86, R127). -/
theorem State.gntLine_holder (s : State) (p : Port) (hs : s.busSound) (h : s.gntLine p = true) : s.holder = some p := by
  simp only [State.gntLine, Bool.and_eq_true] at h
  obtain ⟨holds, -⟩ := hs
  exact (holds p).1 h.2

/-- Settles O55: every command is regular, and on a sound bus the lines are the holder's. -/
theorem busHasOneHolderAndEntriesWait : Obligations.BusHasOneHolderAndEntriesWait := by
  refine ⟨fun s t hb hw h => ?_, fun s p => ⟨fun low => ?_, fun high => ⟨?_, ?_, ?_, ?_⟩, fun hs => ⟨fun hy => ?_, ?_⟩⟩⟩
  · exact t.bus_sound_iff.1 ((step_regular s t h).bus (s.bus_sound_iff.2 ⟨hb, hw⟩))
  · simp [State.gntLine, State.enLine, State.yldLine, State.ntfLine, low]
  · simp only [State.gntLine, high, Bool.not_false, Bool.true_and, PortState.holdsBus_iff]
  · simp only [State.enLine, State.gntLine, high, Bool.not_false, Bool.true_and, PortState.holdsBus_iff]
  · rw [s.yldLine_iff, and_iff_right high]
  · simp only [State.ntfLine, high, Bool.not_false, Bool.true_and, Bool.and_eq_true, NoticeSet.nonempty_iff]
  · obtain ⟨high, t, ht, rfl, -⟩ := (s.yldLine_iff p).1 hy
    obtain ⟨holds, -⟩ := hs
    have granted := (holds t.holder).2 (by rw [State.holder, ht]; rfl)
    simp only [State.gntLine, high, granted, Bool.not_false, Bool.and_self]
  · intro q hp hq
    exact Option.some.inj ((s.gntLine_holder q hs hq).symm.trans (s.gntLine_holder p hs hp))

/-- Settles O59: every command is regular. -/
theorem yieldConditionsNeverGoUnasked : Obligations.YieldConditionsNeverGoUnasked := by
  rintro s t ⟨config, -⟩ hr - - hh hy h
  exact (step_regular s t h).asked config hr hh hy

end Sys2Proof.Machine

namespace Sys2Proof.Machine

/-! # Yields

What the conditions of R106 say of the state, what an asserted yield leaves, and what a withdrawal or a refill of the
drawing reservation does. -/

theorem State.mayYield_iff (s : State) (t : Tenure) :
    s.mayYield t = true ↔ (s.port t.holder).state = .granted ∧ t.yield = none := by
  simp [State.mayYield]

theorem State.mayYield_eq_false_iff (s : State) (t : Tenure) :
    s.mayYield t = false ↔ (s.port t.holder).state ≠ .granted ∨ t.yield ≠ none := by
  rw [← Bool.not_eq_true, s.mayYield_iff, not_and_or]

theorem State.competitorAt_iff (s : State) (x : Tier) :
    s.competitorAt x = true ↔ ∃ q, s.competitorTier q = some x := by
  simp [State.competitorAt, allPorts]

theorem State.anyCompetitor_iff (s : State) : s.anyCompetitor = true ↔ ∃ q, s.competitorTier q ≠ none := by
  simp [State.anyCompetitor, allPorts, Option.isSome_iff_ne_none]

/-- A tier-1 competitor preempts standing 2 and 3, a tier-2 one standing 3 (R106). -/
theorem State.preempts_iff (s : State) (x : Tier) : s.preempts x = true ↔
    (x ≠ .one ∧ ∃ q, s.competitorTier q = some .one) ∨ (x = .three ∧ ∃ q, s.competitorTier q = some .two) := by
  simp only [State.preempts, Bool.or_eq_true, Bool.and_eq_true, decide_eq_true_eq, s.competitorAt_iff]

/-- Usage is limited by the spare limit at standing 3, and by the drawing record's max tenure before it (R106). -/
theorem State.limitReached_iff (s : State) (t : Tenure) : s.limitReached t = true ↔
    (t.standing = .three ∧ t.spareLimit ≤ t.usage) ∨
      (t.standing ≠ .three ∧ ∃ h r, t.drawing = some h ∧ s.fresh h = some r ∧ r.maxTenure ≤ t.usage) := by
  unfold State.limitReached
  by_cases spare : t.standing = .three
  · simp [spare]
  · simp only [spare, if_false, Option.any_eq_true, Option.bind_eq_some_iff, decide_eq_true_eq, false_and, false_or,
      ne_eq, not_false_eq_true, true_and]
    exact ⟨fun ⟨r, ⟨h, hd, hf⟩, le⟩ => ⟨h, r, hd, hf, le⟩, fun ⟨h, r, hd, hf, le⟩ => ⟨r, ⟨h, hd, hf⟩, le⟩⟩

section
variable {s : State} {t : Tenure}

/-! The first condition met, in the order of R107. -/

theorem State.yieldCondition_preempted (hp : s.preempts t.standing = true) :
    s.yieldCondition t = some .preempted := if_pos hp

theorem State.yieldCondition_limit (hp : s.preempts t.standing ≠ true)
    (hl : s.anyCompetitor = true ∧ s.limitReached t = true) : s.yieldCondition t = some .limit := by
  simp [State.yieldCondition, hp, hl]

theorem State.yieldCondition_idle (hp : s.preempts t.standing ≠ true)
    (hl : ¬(s.anyCompetitor = true ∧ s.limitReached t = true))
    (hi : s.anyCompetitor = true ∧ t.idleLimit ≤ t.idleTicks) : s.yieldCondition t = some .idle := by
  simp only [State.yieldCondition, Bool.and_eq_true, decide_eq_true_eq, if_neg hp, if_neg hl, if_pos hi]

theorem State.yieldCondition_none (hp : s.preempts t.standing ≠ true)
    (hl : ¬(s.anyCompetitor = true ∧ s.limitReached t = true))
    (hi : ¬(s.anyCompetitor = true ∧ t.idleLimit ≤ t.idleTicks)) : s.yieldCondition t = none := by
  simp only [State.yieldCondition, Bool.and_eq_true, decide_eq_true_eq, if_neg hp, if_neg hl, if_neg hi]

end

/-- Where a condition is met, the yield is asserted with it (R106, R107). -/
theorem State.testYield_of_condition (s : State) (t : Tenure) (r : YieldReason) (ht : s.tenure = some t)
    (hm : s.mayYield t = true) (hc : s.yieldCondition t = some r) : s.testYield = s.assertYield t r := by
  simp only [State.testYield, ht, hm, hc, if_true]

theorem State.testYield_of_no_condition (s : State) (t : Tenure) (ht : s.tenure = some t)
    (hc : s.yieldCondition t = none) : s.testYield = s := by
  simp only [State.testYield, ht, hc, ite_self]

theorem State.assertYield_eq (s : State) (t : Tenure) (r : YieldReason) : s.assertYield t r =
    { s with
      tenure := some
        { t with yield := some r, tenureG := some s.config.grace, graceRemaining := some s.config.grace }
      ports := bankSet s.ports t.holder { s.port t.holder with state := .yielding, lastYield := .asked r } } := rfl

/-- Settles O18: the first condition met in the order of R107 is asserted. -/
theorem yieldTestAssertsFirstConditionMet : Obligations.YieldTestAssertsFirstConditionMet := by
  refine fun s => ⟨s.testYield_of_no_tenure, fun t ht => ⟨fun h => ?_, fun granted unasked P L I hP hL hI => ?_⟩⟩
  · exact s.testYield_of_not_mayYield t ht ((s.mayYield_eq_false_iff t).2 h)
  · have may : s.mayYield t = true := (s.mayYield_iff t).2 ⟨granted, unasked⟩
    rw [← s.preempts_iff] at hP
    rw [← s.anyCompetitor_iff, ← s.limitReached_iff] at hL
    rw [← s.anyCompetitor_iff] at hI
    refine ⟨fun reason first => ?_, fun noP noL noI => ?_⟩
    · have met : s.yieldCondition t = some reason := by
        obtain ⟨p, rfl⟩ | ⟨noP, l, rfl⟩ | ⟨noP, noL, i, rfl⟩ := first
        · exact State.yieldCondition_preempted (hP.1 p)
        · exact State.yieldCondition_limit (mt hP.2 noP) (hL.1 l)
        · exact State.yieldCondition_idle (mt hP.2 noP) (mt hL.2 noL) (hI.1 i)
      rw [s.testYield_of_condition t reason ht may met, s.assertYield_eq]
    · exact s.testYield_of_no_condition t ht
        (State.yieldCondition_none (mt hP.2 noP) (mt hL.2 noL) (mt hI.2 noI))

/-! ## The drawing reservation -/

theorem State.raiseYield_of_mayYield (s : State) (t : Tenure) (r : YieldReason) (ht : s.tenure = some t)
    (hm : s.mayYield t = true) : s.raiseYield r = s.assertYield t r := by
  simp only [State.raiseYield, ht, hm, if_true]

theorem State.raiseYield_of_not_mayYield (s : State) (t : Tenure) (r : YieldReason) (ht : s.tenure = some t)
    (hm : s.mayYield t = false) : s.raiseYield r = s := by
  simp only [State.raiseYield, ht, hm, Bool.false_eq_true, if_false]

/-- A tenure whose drawing reservation is withdrawn has standing 3 (R108). -/
def Tenure.undrawn (t : Tenure) : Tenure := { t with drawing := none, standing := .three }

theorem State.withdrawDrawing_elastic (s : State) (t : Tenure) (h : Handle) (ht : s.tenure = some t)
    (hd : t.drawing = some h) : s.withdrawDrawing h .elastic = s.setTenure (some t.undrawn) := by
  simp only [State.withdrawDrawing, ht, hd, if_true, Tenure.undrawn]

/-- The withdrawal of a FIXED drawing record is also a cause of its own to yield (R107, R108). -/
theorem State.withdrawDrawing_fixed (s : State) (t : Tenure) (h : Handle) (ht : s.tenure = some t)
    (hd : t.drawing = some h) :
    s.withdrawDrawing h .fixed = (s.setTenure (some t.undrawn)).raiseYield .withdrawn := by
  simp only [State.withdrawDrawing, ht, hd, if_true, Tenure.undrawn]

/-- A handle that the tenure does not draw on neither withdraws nor refills its drawing (R105, R108). -/
theorem State.drawing_other (s : State) (h : Handle) (cls : ResClass) (hd : s.tenure.bind (·.drawing) ≠ some h) :
    s.withdrawDrawing h cls = s ∧ s.refillStanding h cls = s := by
  unfold State.withdrawDrawing State.refillStanding
  cases ht : s.tenure with
  | none => exact ⟨rfl, rfl⟩
  | some t =>
    have other : t.drawing ≠ some h := by simpa [ht] using hd
    simp [other]

theorem State.refillStanding_fixed (s : State) (h : Handle) : s.refillStanding h .fixed = s := by
  unfold State.refillStanding
  split <;> simp

theorem State.setTenure_self (s : State) (t : Tenure) (ht : s.tenure = some t) : s.setTenure (some t) = s := by
  rw [← ht]; rfl

theorem State.refillStanding_elastic (s : State) (t : Tenure) (h : Handle) (ht : s.tenure = some t)
    (hd : t.drawing = some h) : s.refillStanding h .elastic =
      s.setTenure (some { t with standing := if t.standing = .three then .two else t.standing }) := by
  by_cases spare : t.standing = .three
  · simp [State.refillStanding, ht, hd, spare]
  · simp only [State.refillStanding, ht, spare, and_false, if_false]
    exact (s.setTenure_self t ht).symm

/-- Settles O19: the class of the record and the state of the holder say what follows. -/
theorem withdrawalAndRefillOfDrawingReservation : Obligations.WithdrawalAndRefillOfDrawingReservation := by
  intro s h
  refine ⟨fun cls hd => s.drawing_other h cls hd, fun t ht hd => ⟨?_, fun may => ?_, fun not => ?_, ?_, ?_⟩⟩
  · exact s.withdrawDrawing_elastic t h ht hd
  · rw [s.withdrawDrawing_fixed t h ht hd,
      State.raiseYield_of_mayYield (s.setTenure (some t.undrawn)) t.undrawn .withdrawn rfl
        ((State.mayYield_iff _ _).2 may)]
    rfl
  · rw [s.withdrawDrawing_fixed t h ht hd,
      State.raiseYield_of_not_mayYield (s.setTenure (some t.undrawn)) t.undrawn .withdrawn rfl
        ((State.mayYield_eq_false_iff _ _).2 not)]
    rfl
  · exact s.refillStanding_fixed h
  · exact s.refillStanding_elastic t h ht hd

end Sys2Proof.Machine

namespace Sys2Proof.Machine

/-! # Strobes and readies -/

/-- The upper eight address bits of the window are 0xF0 plus WB (R139). -/
theorem windowPage_eq (wb : BitVec 4) : 0xF#4 ++ wb = 0xF0#8 + wb.setWidth 8 := by
  revert wb; decide

theorem State.windowMark_eq (s : State) (addr : Address) (write : Bool) (p : Port) : s.windowMark addr write p =
    if addr.extractLsb' 8 8 = 0xF0#8 + s.windowBase.setWidth 8 then
      some { offset := addr.extractLsb' 0 8, write := write, port := p }
    else none := by
  rw [← windowPage_eq, State.windowMark]

/-- In a tenure with fewer than two cycles a strobe is a cycle, cheaper behind another one (R98). -/
theorem execAddressStrobe_joins (addr : Address) (write : Bool) (s : State) (t : Tenure) (hr : s.rstLow = false)
    (ht : s.tenure = some t) (few : s.cycles.length < 2) : execAddressStrobe addr write s = .next
      { s with pendingOrder := s.pendingOrder ++
        [.cycle { cost := if s.cycles = [] then 2 else 1, access := s.windowMark addr write t.holder }] } := by
  match hl : s.cycles with
  | [] => simp [execAddressStrobe, hr, ht, hl]
  | [_] => simp [execAddressStrobe, hr, ht, hl]
  | _ :: _ :: _ => simp [hl] at few

/-- A strobe with no tenure, or behind two cycles, is a stray (R98, R99). -/
theorem execAddressStrobe_stray (addr : Address) (write : Bool) (s : State) (hr : s.rstLow = false)
    (h : s.tenure = none ∨ 2 ≤ s.cycles.length) :
    execAddressStrobe addr write s = .next { s with pendingOrder := s.pendingOrder ++ [.stray] } := by
  simp only [execAddressStrobe, hr, Bool.false_eq_true, if_false]
  split
  · rename_i ht hl; rw [ht, hl] at h; simp at h
  · rename_i ht hl; rw [ht, hl] at h; simp at h
  · rfl

/-- Settles O8: the tenure and the length of its list say whether a strobe is a cycle. -/
theorem strobeJoinsListOrBecomesStray : Obligations.StrobeJoinsListOrBecomesStray := by
  refine fun addr write s => ⟨fun low => if_pos low, fun high t ht few => ?_, fun high h => ?_⟩
  · rw [← s.windowMark_eq addr write t.holder]
    exact execAddressStrobe_joins addr write s t high ht few
  · exact execAddressStrobe_stray addr write s high h

theorem State.readyEvent_empty (s : State) (d : Byte) (hr : s.rstLow = false) (ho : s.pendingOrder = []) :
    s.readyEvent d = { s with driven := none } := by
  simp [State.readyEvent, hr, ho]

/-- The ready of a stray completes nothing (R99). -/
theorem State.readyEvent_stray (s : State) (d : Byte) (rest : List Strobe) (hr : s.rstLow = false)
    (ho : s.pendingOrder = .stray :: rest) : s.readyEvent d = { s with pendingOrder := rest, driven := none } := by
  simp [State.readyEvent, hr, ho]

/-- A window read at an offset with no effect drives the byte that stands there (R140). -/
theorem State.windowEffect_plain_read (s : State) (a : WindowAccess) (d : Byte) (hw : a.write = false)
    (notice : a.offset ≠ 0x38) (time : a.offset ≠ 0x3C) :
    s.windowEffect (some a) d = { s with driven := some (s.windowByte a.port a.offset.toNat) } := by
  have notice' : a.offset.toNat ≠ 0x38 := fun e => notice (BitVec.eq_of_toNat_eq e)
  have time' : a.offset.toNat ≠ 0x3C := fun e => time (BitVec.eq_of_toNat_eq e)
  simp only [State.windowEffect, hw, State.windowRead, notice', time', if_false, Bool.false_eq_true]

/-- Settles O9: the oldest entry completes, and a cycle takes its window effect before its charge. -/
theorem readyCompletesOldestEntry : Obligations.ReadyCompletesOldestEntry := by
  intro d s
  have run (u : State) (h : s.readyEvent d = u) : exec (.ready d) s = .next u := congrArg Host.Outcome.next h
  refine ⟨fun low => run _ (if_pos low), fun high empty => run _ (s.readyEvent_empty d high empty),
    fun rest high stray => run _ (s.readyEvent_stray d rest high stray), fun c rest h ha => run _ ?_,
    fun c rest a h ha hw notice time => run _ ?_⟩
  · rw [s.readyEvent_completes c rest h, ha]
    rfl
  · rw [s.readyEvent_completes c rest h, ha, s.windowEffect_plain_read a d hw notice time]

end Sys2Proof.Machine

namespace Sys2Proof.Machine

/-! # The end of a tenure -/

theorem State.endTenure_port (s : State) (p : Port) (x : PortState) :
    (s.endTenure p x).port p = { s.port p with state := x } := bankGet_bankSet_self _ _ _

/-- The tenure of a port ended, and its port record then written (R97, R99). -/
theorem State.endTenure_setPort (s : State) (p : Port) (x : PortState) (r : PortRecord) :
    (s.endTenure p x).setPort p r =
      { s with
        tenure := none
        pendingOrder := s.pendingOrder.map fun _ => .stray
        ports := bankSet s.ports p r } := by
  simp only [State.endTenure_frame, State.setPort, bankSet_bankSet]

/-- A drain is complete once its list is empty (R113). -/
theorem State.finishDrain_of_done (s : State) (t : Tenure) (ht : s.tenure = some t)
    (hst : (s.port t.holder).state = .draining) (hl : s.cycles = []) : s.finishDrain = s.endTenure t.holder .idle := by
  simp [State.finishDrain, ht, hst, hl]

theorem State.finishDrain_of_not_done (s : State) (t : Tenure) (ht : s.tenure = some t)
    (h : (s.port t.holder).state ≠ .draining ∨ s.cycles ≠ []) : s.finishDrain = s := by
  have more : ¬((s.port t.holder).state = .draining ∧ s.cycles = []) := not_and_or.2 h
  simp [State.finishDrain, ht, more]

/-- Settles O16: an empty list ends the tenure of a DRAINING holder, and no other. -/
theorem drainCompletesWhenTheListIsEmpty : Obligations.DrainCompletesWhenTheListIsEmpty := by
  refine fun s => ⟨fun t ht hst hl => ?_, fun t ht h => s.finishDrain_of_not_done t ht h, fun none => ?_⟩
  · rw [s.finishDrain_of_done t ht hst hl, s.endTenure_frame]
  · simp only [State.finishDrain, none]

/-- Drain expiry leaves the holder IDLE with CUT (R114). -/
theorem State.expireDrain_eq (s : State) (p : Port) : s.expireDrain p =
    { s with
      tenure := none
      pendingOrder := s.pendingOrder.map fun _ => .stray
      ports := bankSet s.ports p { s.port p with state := .idle, lastYield := .cut } } := by
  simp only [State.expireDrain, s.endTenure_setPort, s.endTenure_port]

/-- A forced withdrawal leaves the supervisor IDLE with FORCED, its records unchanged (R118). -/
theorem State.forceWithdrawal_eq (s : State) (p : Port) : s.forceWithdrawal p =
    State.place
      { s with
        tenure := none
        pendingOrder := s.pendingOrder.map fun _ => .stray
        ports := bankSet s.ports p
          { s.port p with state := .idle, fenceCount := min 15 ((s.port p).fenceCount + 1), lastYield := .forced } }
      p .forced .none := by
  simp only [State.forceWithdrawal, s.endTenure_setPort, s.endTenure_port]

/-- A fence suspends the ACTIVE and SUSPENDED records of its port, and an ACTIVE one loses its credit (R15). -/
theorem fenceReservation_eq (p : Port) (r : Reservation) : fenceReservation p r =
    if r.owner = p ∧ r.state ≠ .lapsed then
      { r with
        state := .suspended, causes := { r.causes with fence := true }
        credit := if r.state = .active then 0 else r.credit }
    else r := by
  unfold fenceReservation
  by_cases own : r.owner = p
  · cases r.state with
    | active | suspended | lapsed => simp [own]
  · simp [own]

/-- A fence ends the tenure, fences the records of its port and tells the supervisor (R117, R133). -/
theorem State.fencePort_eq (s : State) (p : Port) : s.fencePort p =
    State.place
      (State.place
        { s with
          tenure := none
          pendingOrder := s.pendingOrder.map fun _ => .stray
          ports := bankSet s.ports p
            { s.port p with state := .fenced, fenceCount := min 15 ((s.port p).fenceCount + 1) }
          table := bankMap (fun _ => fenceRecord p) s.table }
        p .fenced .none) s.supervisor .portFenced (.port p) := by
  simp only [State.fencePort, s.endTenure_setPort, s.endTenure_port]

/-! # The expiries -/

/-- Grace expires where the holder is YIELDING with REQ high and its last tick of grace left (R116). -/
theorem State.graceDue_eq_some (s : State) (t : Tenure) (ht : s.tenure = some t)
    (hst : (s.port t.holder).state = .yielding) (hg : t.graceRemaining = some 1) (hq : bankGet s.req t.holder = true) :
    s.graceDue = some t.holder := by
  simp [State.graceDue, ht, hst, hg, hq]

theorem State.graceDue_eq_none (s : State) (t : Tenure) (ht : s.tenure = some t)
    (h : (s.port t.holder).state ≠ .yielding ∨ t.graceRemaining = none ∨ (∃ g, t.graceRemaining = some (g + 2)) ∨
      bankGet s.req t.holder = false) : s.graceDue = none := by
  obtain hst | hg | ⟨g, hg⟩ | hq := h
  · simp [State.graceDue, ht, hst]
  · simp [State.graceDue, ht, hg]
  · simp [State.graceDue, ht, hg]
  · simp [State.graceDue, ht, hq]

/-- Drain expires where a cycle of a DRAINING holder is outstanding and its last tick of drain left (R114). -/
theorem State.drainDue_eq_some (s : State) (t : Tenure) (ht : s.tenure = some t)
    (hst : (s.port t.holder).state = .draining) (hd : t.drainRemaining = some 1) (hl : s.cycles ≠ []) :
    s.drainDue = some t.holder := by
  simp [State.drainDue, ht, hst, hd, hl]

theorem State.drainDue_eq_none (s : State) (t : Tenure) (ht : s.tenure = some t)
    (h : (s.port t.holder).state ≠ .draining ∨ t.drainRemaining = none ∨ (∃ d, t.drainRemaining = some (d + 2)) ∨
      s.cycles = []) : s.drainDue = none := by
  obtain hst | hd | ⟨d, hd⟩ | hl := h
  · simp [State.drainDue, ht, hst]
  · simp [State.drainDue, ht, hd]
  · simp [State.drainDue, ht, hd]
  · simp [State.drainDue, ht, hl]

theorem exec_graceExpiry_of_due (s : State) (p : Port) (hr : s.rstLow = false) (h : s.graceDue = some p) :
    exec .graceExpiry s = .next (s.expireGrace p) := by
  simp only [exec, execGraceExpiry, hr, h]

/-- An expiry that is not reached is no event (log entry 2). -/
theorem exec_graceExpiry_of_not_due (s : State) (h : s.rstLow = true ∨ s.graceDue = none) :
    exec .graceExpiry s = .next s := by
  obtain low | undue := h
  · simp only [exec, execGraceExpiry, low]
  · cases hr : s.rstLow <;> simp only [exec, execGraceExpiry, hr, undue]

theorem exec_drainExpiry_of_due (s : State) (p : Port) (hr : s.rstLow = false) (h : s.drainDue = some p) :
    exec .drainExpiry s = .next (s.expireDrain p) := by
  simp only [exec, execDrainExpiry, hr, h]

theorem exec_drainExpiry_of_not_due (s : State) (h : s.rstLow = true ∨ s.drainDue = none) :
    exec .drainExpiry s = .next s := by
  obtain low | undue := h
  · simp only [exec, execDrainExpiry, low]
  · cases hr : s.rstLow <;> simp only [exec, execDrainExpiry, hr, undue]

/-- Settles O25: the expiry is due or is no event, and the supervisor alone is not fenced. -/
theorem graceExpiryFencesOrWithdrawsByForce : Obligations.GraceExpiryFencesOrWithdrawsByForce := by
  refine fun s t ht => ⟨fun hr hst hg hq => ?_, fun h => ?_⟩
  · rw [exec_graceExpiry_of_due s t.holder hr (s.graceDue_eq_some t ht hst hg hq)]
    refine ⟨fun other => ?_, fun own => ?_⟩
    · rw [State.expireGrace, if_neg other, s.fencePort_eq]
      simp only [← fenceReservation_eq]
      rfl
    · rw [State.expireGrace, if_pos own, s.forceWithdrawal_eq]
  · exact exec_graceExpiry_of_not_due s (h.imp_right (s.graceDue_eq_none t ht))

/-- Settles O26: the expiry is due and cuts the cycles, or is no event. -/
theorem drainExpiryCutsOutstandingCycles : Obligations.DrainExpiryCutsOutstandingCycles := by
  refine fun s t ht => ⟨fun hr hst hd hl => ?_, fun h => ?_⟩
  · rw [exec_drainExpiry_of_due s t.holder hr (s.drainDue_eq_some t ht hst hd hl), s.expireDrain_eq]
  · exact exec_drainExpiry_of_not_due s (h.imp_right (s.drainDue_eq_none t ht))

/-! # The Tenure Monitor's tick -/

/-- The tenure with an idle tick counted (R103). -/
def Tenure.idled (t : Tenure) : Tenure := { t with idleTicks := min 255 (t.idleTicks + 1) }

/-- With an empty list a tick is counted as idle, and the conditions are tested (R103). -/
theorem State.idleTick_of_empty (s : State) (t : Tenure) (ht : s.tenure = some t) (hl : s.cycles = []) :
    s.idleTick = (s.setTenure (some t.idled)).testYield := by
  simp [State.idleTick, ht, State.raiseIdle, hl, Tenure.idled]

theorem State.idleTick_of_outstanding (s : State) (hl : s.cycles ≠ []) : s.idleTick = s := by
  unfold State.idleTick
  split <;> simp [hl]

theorem State.raiseIdle_eq (s : State) (t : Tenure) : s.raiseIdle t =
    { t with idleTicks := if s.cycles = [] then min 255 (t.idleTicks + 1) else t.idleTicks } := by
  by_cases hl : s.cycles = [] <;> simp [State.raiseIdle, hl]

theorem State.tenureTick_of_no_tenure (s : State) (ht : s.tenure = none) : s.tenureTick = s := by
  simp only [State.tenureTick, State.graceDue, State.drainDue, ht]

theorem State.tenureTick_of_graceDue (s : State) (p : Port) (h : s.graceDue = some p) :
    s.tenureTick = s.expireGrace p := by
  simp only [State.tenureTick, h]

theorem State.tenureTick_of_drainDue (s : State) (p : Port) (hg : s.graceDue = none) (h : s.drainDue = some p) :
    s.tenureTick = s.expireDrain p := by
  simp only [State.tenureTick, hg, h]

theorem State.tenureTick_of_granted (s : State) (t : Tenure) (ht : s.tenure = some t)
    (hst : (s.port t.holder).state = .granted) : s.tenureTick = s.idleTick := by
  have grace : s.graceDue = none := s.graceDue_eq_none t ht (.inl (by simp [hst]))
  have drain : s.drainDue = none := s.drainDue_eq_none t ht (.inl (by simp [hst]))
  simp only [State.tenureTick, grace, drain, ht, hst]

/-- Before the last tick of grace the count falls (R116). -/
theorem State.tenureTick_of_grace (s : State) (t : Tenure) (g : Nat) (ht : s.tenure = some t)
    (hst : (s.port t.holder).state = .yielding) (hg : t.graceRemaining = some (g + 2)) :
    s.tenureTick = s.setTenure (some { s.raiseIdle t with graceRemaining := some (g + 1) }) := by
  have grace : s.graceDue = none := s.graceDue_eq_none t ht (.inr (.inr (.inl ⟨g, hg⟩)))
  have drain : s.drainDue = none := s.drainDue_eq_none t ht (.inl (by simp [hst]))
  simp only [State.tenureTick, grace, drain, ht, hst, hg, Option.map_some]
  rfl

/-- Before the last tick of drain the count falls (R114). -/
theorem State.tenureTick_of_drain (s : State) (t : Tenure) (d : Nat) (ht : s.tenure = some t)
    (hst : (s.port t.holder).state = .draining) (hd : t.drainRemaining = some (d + 2)) :
    s.tenureTick = s.setTenure (some { s.raiseIdle t with drainRemaining := some (d + 1) }) := by
  have grace : s.graceDue = none := s.graceDue_eq_none t ht (.inl (by simp [hst]))
  have drain : s.drainDue = none := s.drainDue_eq_none t ht (.inr (.inr (.inl ⟨d, hd⟩)))
  simp only [State.tenureTick, grace, drain, ht, hst, hd, Option.map_some]
  rfl

/-- Settles O22: the state of the holder says what a tick counts, and the last tick of a count is its expiry. -/
theorem tickCountsIdleGraceAndDrain : Obligations.TickCountsIdleGraceAndDrain := by
  refine fun s hr => ⟨s.tenureTick_of_no_tenure, fun t ht => ⟨fun hst hl => ?_, fun hst hl => ?_, fun g hst hg => ?_,
    fun d hst hd => ?_, fun hst hg hq => ?_, fun hst hd hl => ?_⟩⟩
  · rw [s.tenureTick_of_granted t ht hst, s.idleTick_of_empty t ht hl]
    rfl
  · rw [s.tenureTick_of_granted t ht hst, s.idleTick_of_outstanding hl]
  · rw [s.tenureTick_of_grace t g ht hst hg, s.raiseIdle_eq]
    rfl
  · rw [s.tenureTick_of_drain t d ht hst hd, s.raiseIdle_eq]
    rfl
  · have due := s.graceDue_eq_some t ht hst hg hq
    rw [exec_graceExpiry_of_due s t.holder hr due, s.tenureTick_of_graceDue t.holder due]
  · have grace : s.graceDue = none := s.graceDue_eq_none t ht (.inl (by simp [hst]))
    have due := s.drainDue_eq_some t ht hst hd hl
    rw [exec_drainExpiry_of_due s t.holder hr due, s.tenureTick_of_drainDue t.holder grace due]

/-! # IDLE_LIMIT -/

theorem State.idleDue_iff (s : State) (t : Tenure) (ht : s.tenure = some t) : s.idleDue = true ↔
    (s.port t.holder).state = .granted ∧ t.yield = none ∧ s.cycles = [] ∧ (∃ q, s.competitorTier q ≠ none) ∧
      t.idleLimit ≤ t.idled.idleTicks := by
  simp only [State.idleDue, ht, Option.any_some, Bool.and_eq_true, decide_eq_true_eq, s.mayYield_iff,
    s.anyCompetitor_iff, List.isEmpty_iff, and_assoc, Tenure.idled]

/-- After the raise that reaches the idle limit, IDLE is asserted where no other condition is met (R103, R106). -/
theorem State.testYield_idled (s : State) (t : Tenure) (granted : (s.port t.holder).state = .granted)
    (unasked : t.yield = none) (waits : ∃ q, s.competitorTier q ≠ none) (limit : t.idleLimit ≤ t.idled.idleTicks)
    (first : s.preempts t.standing = false) (reached : s.limitReached t = false) :
    (s.setTenure (some t.idled)).testYield = (s.setTenure (some t.idled)).assertYield t.idled .idle := by
  have first' : (s.setTenure (some t.idled)).preempts t.idled.standing = false := first
  have reached' : (s.setTenure (some t.idled)).limitReached t.idled = false := reached
  have waits' : (s.setTenure (some t.idled)).anyCompetitor = true := s.anyCompetitor_iff.2 waits
  exact State.testYield_of_condition _ t.idled .idle rfl ((State.mayYield_iff _ _).2 ⟨granted, unasked⟩)
    (State.yieldCondition_idle (by simp [first']) (by simp [reached']) ⟨waits', limit⟩)

/-- Settles O24: where the limit is reached and nothing comes before it in R107, the test asserts IDLE. -/
theorem idleLimitAsksToYield : Obligations.IdleLimitAsksToYield := by
  refine fun s t ht => ⟨fun hr granted unasked hl waits limit => ?_, fun h => if_pos ?_⟩
  · have due : s.idleDue = true := (s.idleDue_iff t ht).2 ⟨granted, unasked, hl, waits, limit⟩
    have run : exec .idleLimit s = .next (s.setTenure (some t.idled)).testYield :=
      (if_neg (by simp [hr, due])).trans (congrArg Host.Outcome.next (s.idleTick_of_empty t ht hl))
    refine ⟨run, fun first reached => ?_⟩
    have idle := s.testYield_idled t granted unasked waits limit first reached
    rw [run, idle, State.assertYield_eq]
    rfl
  · rw [← Bool.not_eq_true, s.idleDue_iff t ht]
    refine h.imp_right fun h ⟨granted, unasked, hl, ⟨q, waits⟩, limit⟩ => ?_
    obtain other | asked | outstanding | alone | below := h
    · exact other granted
    · exact asked unasked
    · exact outstanding hl
    · exact waits (alone q)
    · exact absurd limit (Nat.not_le.2 below)

end Sys2Proof.Machine

namespace Sys2Proof.Machine

/-! # The board of commands and notices

What the laws of R131, R142, R145, R146, R148 and R188 read of a state is its `State.board`, and `Board.Change` says
once what a step can do to it. -/

/-- What the laws of the Command Unit and the Notice Unit read. -/
structure Board where
  /-- the ports that are not DETACHED -/
  attached : Vector Bool 8
  notices : Vector NoticeSet 8
  latches : Vector Latch 8
  slots : Vector CommandSlot 8
  queue : List Port
  /-- the port whose captured record is being taken, within the event of the take (R147) -/
  hand : Option Port
  /-- the port whose reply the walk in progress has still to write (R130, R148) -/
  awaited : Option Port

/-- The port whose reply this walk has still to write: its issuer, unless a detach has discarded the reply (R130). -/
def Walk.owed (w : Walk) : Option Port :=
  match w.kind with
  | .list _ _ _ => some w.issuer
  | .resetTable _ discarded => if discarded then none else some w.issuer

/-- The board of a state within the take from a port's slot, or outside any take. -/
def State.board (s : State) (hand : Option Port) : Board where
  attached := s.use.attached
  notices := s.notices
  latches := s.latches
  slots := s.slots
  queue := s.cmdQueue
  hand := hand
  awaited := s.walk.bind Walk.owed

/-- A slot with its command completed (R145, R147). -/
def CommandSlot.answered (c : CommandSlot) (x : ReplyStatus) (n : Nat) (bs : List Byte) : CommandSlot :=
  { c with state := .done, status := x, count := n, data := replyData bs }

/-- A slot with a trigger accepted (R143). -/
def CommandSlot.triggered (area : Vector Byte 16) : CommandSlot :=
  { state := .queued, area := area, captured := some area, status := .pending, count := 0
    data := Vector.replicate 30 0, refused := false }

/-- The reply of a completed command: its status, with count and data 0 for a refusal (R145). -/
structure Answer (x : ReplyStatus) (n : Nat) (bs : List Byte) : Prop where
  given : x ≠ .none
  final : x ≠ .pending
  refusal : x ≠ .done → n = 0 ∧ bs = []

theorem Answer.done (n : Nat) (bs : List Byte) : Answer .done n bs := ⟨by decide, by decide, fun h => absurd rfl h⟩

namespace Board

/-- The ports that wait for their reply since the trigger: the one in hand and the queued ones (R146). -/
def waits (b : Board) : List Port := b.hand.toList ++ b.queue

/-- The changes of the board, each with what makes it lawful; every event is a chain of them. -/
inductive Change : Board → Board → Prop
  /-- Nothing on the board changes. -/
  | refl (b : Board) : Change b b
  /-- One change after another. -/
  | trans {a b c : Board} : Change a b → Change b c → Change a c
  /-- A port is attached (R126), or moves between the states of an attached one. -/
  | attach (b : Board) (p : Port) : Change b { b with attached := bankSet b.attached p true }
  /-- A notice is placed for an attached port (R189). -/
  | place (b : Board) (p : Port) (k : NoticeKind) (x : Subject) (h : bankGet b.attached p = true) :
      Change b { b with notices := bankSet b.notices p ((bankGet b.notices p).insert k x) }
  /-- An item leaves a set for the latch; from an empty set the latch takes its reset value (R153, R193). -/
  | readOut (b : Board) (p : Port) (n : NoticeSet) (l : Latch) (hn : n.entries.Sublist (bankGet b.notices p).entries)
      (he : bankGet b.notices p = NoticeSet.initial → n = NoticeSet.initial ∧ l = Latch.initial) :
      Change b { b with notices := bankSet b.notices p n, latches := bankSet b.latches p l }
  /-- A byte is stored in a command area, or a trigger is refused (R141, R144). -/
  | store (b : Board) (p : Port) (area : Vector Byte 16) (refused : Bool) :
      Change b { b with slots := bankSet b.slots p { bankGet b.slots p with area := area, refused := refused } }
  /-- A trigger is accepted (R143). -/
  | trigger (b : Board) (p : Port) (area : Vector Byte 16)
      (h : (bankGet b.slots p).state = .idle ∨ (bankGet b.slots p).state = .done) :
      Change b { b with slots := bankSet b.slots p (.triggered area), queue := b.queue ++ [p] }
  /-- The oldest port leaves the queue for its take (R147). -/
  | take (b : Board) (p : Port) (rest : List Port) (hq : b.queue = p :: rest) (hh : b.hand = none)
      (ha : b.awaited = none) : Change b { b with queue := rest, hand := some p }
  /-- The take completes the command (R145, R147). -/
  | answer (b : Board) (p : Port) (x : ReplyStatus) (n : Nat) (bs : List Byte) (hh : b.hand = some p)
      (h : Answer x n bs) :
      Change b { b with slots := bankSet b.slots p ((bankGet b.slots p).answered x n bs), hand := none }
  /-- The take begins a walk (R148). -/
  | begin (b : Board) (p : Port) (hh : b.hand = some p) :
      Change b
        { b with slots := bankSet b.slots p { bankGet b.slots p with state := .running }, hand := none, awaited := some p }
  /-- The walk completes the command (R172, R185). -/
  | finish (b : Board) (p : Port) (x : ReplyStatus) (n : Nat) (bs : List Byte) (ha : b.awaited = some p)
      (h : Answer x n bs) :
      Change b { b with slots := bankSet b.slots p ((bankGet b.slots p).answered x n bs), awaited := none }
  /-- A port is detached (R130, R131). -/
  | depart (b : Board) (p : Port) (hh : b.hand = none) :
      Change b
        { b with
          attached := bankSet b.attached p false, notices := bankSet b.notices p NoticeSet.initial
          latches := bankSet b.latches p Latch.initial, slots := bankSet b.slots p CommandSlot.initial
          queue := b.queue.filter fun q => decide (q ≠ p), awaited := b.awaited.filter fun q => decide (q ≠ p) }
  /-- Everything is abandoned (R125). -/
  | reset (b : Board) (a : Vector Bool 8) : Change b { State.reset.board none with attached := a }

/-! ## The laws of the Notice Unit -/

/-- The laws of the notice sets, and the sets and latches of DETACHED ports (R131, R188, R196). -/
def noticesSound (b : Board) : Prop :=
  ∀ p, (bankGet b.notices p).sound ∧
    (bankGet b.attached p = false → bankGet b.notices p = NoticeSet.initial ∧ bankGet b.latches p = Latch.initial)

end Board

theorem NoticeSet.initial_sound : NoticeSet.initial.sound :=
  ⟨Nat.zero_le 16, List.Pairwise.nil, fun _ h => nomatch h⟩

/-- A set that holds some of the entries keeps the laws. -/
theorem NoticeSet.sound.sublist {m n : NoticeSet} (h : n.sound) (hm : m.entries.Sublist n.entries) : m.sound := by
  obtain ⟨few, distinct, counted⟩ := h
  exact ⟨hm.length_le.trans few, distinct.sublist hm, fun e he => counted e (hm.subset he)⟩

theorem NoticeEntry.bump_kind (k : NoticeKind) (x : Subject) (e : NoticeEntry) :
    (e.bump k x).kind = e.kind ∧ (e.bump k x).subject = e.subject := by
  unfold NoticeEntry.bump
  split <;> exact ⟨rfl, rfl⟩

theorem NoticeEntry.bump_count (k : NoticeKind) (x : Subject) (e : NoticeEntry) (h : 1 ≤ e.count ∧ e.count ≤ 15) :
    1 ≤ (e.bump k x).count ∧ (e.bump k x).count ≤ 15 := by
  unfold NoticeEntry.bump
  split
  · simp only
    omega
  · exact h

/-- A placement keeps the laws of a set: it merges into the entry of its kind and subject, stores a new entry where the
set has none and room for one, or raises the overrun indication alone (R189). -/
theorem NoticeSet.sound.insert {n : NoticeSet} (h : n.sound) (k : NoticeKind) (x : Subject) : (n.insert k x).sound := by
  obtain ⟨few, distinct, counted⟩ := h
  unfold NoticeSet.insert
  split
  · refine ⟨by simpa using few, List.pairwise_map.2 (distinct.imp fun {a b} hab => ?_), fun e he => ?_⟩
    · rwa [(a.bump_kind k x).1, (a.bump_kind k x).2, (b.bump_kind k x).1, (b.bump_kind k x).2]
    · obtain ⟨e', he', rfl⟩ := List.mem_map.1 he
      exact e'.bump_count k x (counted e' he')
  · rename_i new
    split
    · rename_i room
      have other : ∀ e ∈ n.entries, ¬(e.kind = k ∧ e.subject = x) := by
        simpa [NoticeEntry.same] using new
      refine ⟨by simpa [Config.noticeLimit] using room, ?_, ?_⟩
      · exact List.pairwise_append.2 ⟨distinct, List.pairwise_singleton _ _, by simpa using other⟩
      · simpa [or_imp, forall_and] using counted
    · exact ⟨few, distinct, counted⟩

namespace Board

/-- A set and latch replaced keep the laws if the new ones do. -/
theorem noticesSound.replace {b c : Board} (hb : b.noticesSound) (p : Port)
    (others : ∀ q, q ≠ p → bankGet c.notices q = bankGet b.notices q ∧ bankGet c.latches q = bankGet b.latches q ∧
      bankGet c.attached q = bankGet b.attached q)
    (own : (bankGet c.notices p).sound ∧ (bankGet c.attached p = false →
      bankGet c.notices p = NoticeSet.initial ∧ bankGet c.latches p = Latch.initial)) : c.noticesSound := by
  intro q
  by_cases hq : q = p
  · subst hq
    exact own
  · obtain ⟨hn, hl, ha⟩ := others q hq
    rw [hn, hl, ha]
    exact hb q

/-- Every change of the board keeps the laws of the Notice Unit. -/
theorem Change.noticesSound {b c : Board} (h : b.Change c) (hb : b.noticesSound) : c.noticesSound := by
  induction h with
  | trans _ _ first second => exact second (first hb)
  | attach b p =>
    exact hb.replace p (fun q hq => ⟨rfl, rfl, bankGet_bankSet_ne _ hq _⟩) ⟨(hb p).1, by simp⟩
  | place b p k x h =>
    exact hb.replace p (fun q hq => ⟨bankGet_bankSet_ne _ hq _, rfl, rfl⟩)
      ⟨by simpa using (hb p).1.insert k x, by simp [h]⟩
  | readOut b p n l hn he =>
    refine hb.replace p (fun q hq => ⟨bankGet_bankSet_ne _ hq _, bankGet_bankSet_ne _ hq _, rfl⟩) ⟨?_, fun detached => ?_⟩
    · simpa using (hb p).1.sublist hn
    · simpa using he ((hb p).2 detached).1
  | depart b p hh =>
    exact hb.replace p
      (fun q hq => ⟨bankGet_bankSet_ne _ hq _, bankGet_bankSet_ne _ hq _, bankGet_bankSet_ne _ hq _⟩)
      ⟨by simpa using NoticeSet.initial_sound, by simp⟩
  | reset b a =>
    intro p
    simpa [State.board, State.reset] using NoticeSet.initial_sound
  | refl | store | trigger | take | answer | begin | finish => exact hb

/-! ## The laws of the Command Unit -/

/-- The laws of the command queue, the slots and their replies (R130, R142, R145, R146, R148). -/
structure commandsSound (b : Board) : Prop where
  nodup : b.waits.Nodup
  queued : ∀ p, p ∈ b.waits ↔ (bankGet b.slots p).state = .queued
  running : ∀ p, b.awaited = some p ↔ (bankGet b.slots p).state = .running
  captured : ∀ p, (bankGet b.slots p).captured = none ↔ (bankGet b.slots p).state = .idle
  reply : ∀ p, (bankGet b.slots p).replySound
  /-- a take is due only while no walk runs (R147) -/
  alone : b.hand ≠ none → b.awaited = none

/-- One slot replaced, with its place among the ports that wait and its walk, keeps the laws if the new slot does. -/
theorem commandsSound.replace {b c : Board} (hb : b.commandsSound) (p : Port) (v : CommandSlot)
    (slots : c.slots = bankSet b.slots p v) (nodup : c.waits.Nodup)
    (others : ∀ q, q ≠ p → (q ∈ c.waits ↔ q ∈ b.waits) ∧ (c.awaited = some q ↔ b.awaited = some q))
    (queued : p ∈ c.waits ↔ v.state = .queued) (running : c.awaited = some p ↔ v.state = .running)
    (captured : v.captured = none ↔ v.state = .idle) (reply : v.replySound) (alone : c.hand ≠ none → c.awaited = none) :
    c.commandsSound := by
  have own : bankGet c.slots p = v := by simp [slots]
  have other (q : Port) (hq : q ≠ p) : bankGet c.slots q = bankGet b.slots q := by
    rw [slots, bankGet_bankSet_ne _ hq]
  refine ⟨nodup, fun q => ?_, fun q => ?_, fun q => ?_, fun q => ?_, alone⟩ <;> by_cases hq : q = p
  · rwa [hq, own]
  · rw [other q hq, (others q hq).1]; exact hb.queued q
  · rwa [hq, own]
  · rw [other q hq, (others q hq).2]; exact hb.running q
  · rwa [hq, own]
  · rw [other q hq]; exact hb.captured q
  · rwa [hq, own]
  · rw [other q hq]; exact hb.reply q

/-- The port in hand has a QUEUED slot, stands no more in the queue, and no walk runs beside its take (R147). -/
theorem commandsSound.inHand {b : Board} (hb : b.commandsSound) {p : Port} (hh : b.hand = some p) :
    (∀ q, q ≠ p → (q ∈ b.waits ↔ q ∈ b.queue)) ∧ b.queue.Nodup ∧ p ∉ b.queue ∧
      (bankGet b.slots p).state = .queued ∧ b.awaited = none := by
  have waits : b.waits = p :: b.queue := by simp [Board.waits, hh]
  have distinct := hb.nodup
  rw [waits, List.nodup_cons] at distinct
  exact ⟨fun q hq => by simp [waits, hq], distinct.2, distinct.1, (hb.queued p).1 (by simp [waits]),
    hb.alone (by simp [hh])⟩

end Board

theorem replyData_nil : replyData [] = Vector.replicate 30 0 := by
  apply bank_ext
  simp [replyData, bankGet, Vector.get_eq_getElem]

/-- A completed command leaves the reply that DONE requires (R145). -/
theorem CommandSlot.answered_replySound (c : CommandSlot) {x : ReplyStatus} {n : Nat} {bs : List Byte}
    (h : Answer x n bs) : (c.answered x n bs).replySound := by
  refine ⟨h.given, h.final, fun hx => ?_⟩
  obtain ⟨rfl, rfl⟩ := h.refusal hx
  exact ⟨rfl, replyData_nil⟩

/-- The reply of a command that runs is the reply of a queued one (R148). -/
theorem CommandSlot.replySound.run {c : CommandSlot} (h : c.replySound) (hc : c.state = .queued) :
    ({ c with state := .running } : CommandSlot).replySound := by
  simpa [CommandSlot.replySound, hc] using h

namespace Board

/-- Every change of the board keeps the laws of the Command Unit. -/
theorem Change.commandsSound {b c : Board} (h : b.Change c) (hb : b.commandsSound) : c.commandsSound := by
  induction h with
  | trans _ _ first second => exact second (first hb)
  | refl | attach | place | readOut => exact ⟨hb.nodup, hb.queued, hb.running, hb.captured, hb.reply, hb.alone⟩
  | store b p area refused =>
    exact hb.replace p _ rfl hb.nodup (fun _ _ => ⟨.rfl, .rfl⟩) (hb.queued p) (hb.running p) (hb.captured p)
      (hb.reply p) hb.alone
  | trigger b p area h =>
    have notQueued : p ∉ b.waits := fun hp => by
      rw [hb.queued p] at hp
      simp [hp] at h
    have notRunning : b.awaited ≠ some p := fun hp => by
      rw [hb.running p] at hp
      simp [hp] at h
    have waits : Board.waits { b with slots := bankSet b.slots p (.triggered area), queue := b.queue ++ [p] } =
        b.waits ++ [p] := (List.append_assoc _ _ _).symm
    refine hb.replace p (.triggered area) rfl ?_ (fun q hq => ⟨?_, .rfl⟩) ?_ ?_ ?_ ?_ hb.alone
    · rw [waits]
      exact List.nodup_append.2 ⟨hb.nodup, List.nodup_singleton p, fun a ha q hq e => by
        rw [List.mem_singleton.1 hq] at e
        exact notQueued (e ▸ ha)⟩
    · rw [waits]
      simp [hq]
    · rw [waits]
      simp [CommandSlot.triggered]
    · simpa [CommandSlot.triggered] using notRunning
    · simp [CommandSlot.triggered]
    · exact ⟨rfl, rfl, rfl⟩
  | take b p rest hq hh ha =>
    have waits : Board.waits { b with queue := rest, hand := some p } = b.waits := by simp [Board.waits, hq, hh]
    exact ⟨waits ▸ hb.nodup, waits ▸ hb.queued, hb.running, hb.captured, hb.reply, fun _ => ha⟩
  | answer b p x n bs hh h =>
    obtain ⟨waits, nodup, away, queued, alone⟩ := hb.inHand hh
    refine hb.replace p _ rfl nodup (fun q hq => ⟨(waits q hq).symm, .rfl⟩) ?_ ?_ ?_
      (CommandSlot.answered_replySound _ h) fun h => absurd rfl h
    · simpa [Board.waits, CommandSlot.answered] using away
    · simp [alone, CommandSlot.answered]
    · simp [CommandSlot.answered, hb.captured p, queued]
  | begin b p hh =>
    obtain ⟨waits, nodup, away, queued, alone⟩ := hb.inHand hh
    refine hb.replace p _ rfl nodup (fun q hq => ⟨(waits q hq).symm, ?_⟩) ?_ ?_ ?_ ((hb.reply p).run queued)
      fun h => absurd rfl h
    · simp [alone, Ne.symm hq]
    · simpa [Board.waits] using away
    · simp
    · simp [hb.captured p, queued]
  | finish b p x n bs ha h =>
    have running := (hb.running p).1 ha
    refine hb.replace p _ rfl hb.nodup (fun q hq => ⟨.rfl, ?_⟩) ?_ ?_ ?_ (CommandSlot.answered_replySound _ h)
      fun _ => rfl
    · simp [ha, Ne.symm hq]
    · have queued := hb.queued p
      rw [running] at queued
      simpa [CommandSlot.answered, Board.waits] using queued
    · simp [CommandSlot.answered]
    · simp [CommandSlot.answered, hb.captured p, running]
  | depart b p hh =>
    have waits (a n l s w) : Board.waits
        { b with
          attached := a, notices := n, latches := l, slots := s, queue := b.queue.filter fun q => decide (q ≠ p)
          awaited := w } = b.waits.filter fun q => decide (q ≠ p) := by
      simp [Board.waits, hh]
    refine hb.replace p CommandSlot.initial rfl ?_ (fun q hq => ⟨?_, ?_⟩) ?_ ?_ ?_ ⟨rfl, rfl, rfl⟩
      fun h => absurd hh h
    · rw [waits]
      exact hb.nodup.filter _
    · rw [waits]
      simp [hq]
    · simp [Option.filter_eq_some_iff, hq]
    · rw [waits]
      simp [CommandSlot.initial]
    · simp [Option.filter_eq_some_iff, CommandSlot.initial]
    · simp [CommandSlot.initial]
  | reset b a =>
    constructor <;> simp [Board.waits, State.board, State.reset, CommandSlot.initial, CommandSlot.replySound]

end Board

theorem State.board_noticesSound (s : State) (h : Option Port) : (s.board h).noticesSound ↔ s.noticesSound := by
  have attached (p : Port) : bankGet (s.board h).attached p = false ↔ (s.port p).state = .detached := by
    rw [← Bool.not_eq_true, not_iff_comm]
    exact (s.use_attached p).symm
  simp only [Board.noticesSound, attached]
  exact .rfl

theorem Walk.owed_eq_some (w : Walk) (p : Port) : w.owed = some p ↔ w.issuer = p ∧ ∀ n, w.kind ≠ .resetTable n true := by
  unfold Walk.owed
  split
  · rename_i h; simp [h]
  · rename_i discarded h; cases discarded <;> simp [h]

theorem State.board_commandsSound (s : State) : (s.board none).commandsSound ↔ s.commandsSound := by
  have running (p : Port) : (s.board none).awaited = some p ↔
      ∃ w, s.walk = some w ∧ w.issuer = p ∧ ∀ n, w.kind ≠ .resetTable n true := by
    simp only [← Walk.owed_eq_some]
    exact Option.bind_eq_some_iff
  constructor
  · exact fun h => ⟨h.nodup, h.queued, fun p => (h.running p).symm.trans (running p), h.captured, h.reply⟩
  · rintro ⟨nodup, queued, run, captured, reply⟩
    exact ⟨nodup, queued, fun p => (running p).trans (run p).symm, captured, reply, fun h => absurd rfl h⟩

end Sys2Proof.Machine

namespace Sys2Proof.Machine

/-! ## What the board sees of the shared operations -/

/-- An event changes the board lawfully, within the take from a port's slot or outside any take. -/
def State.serves (hand : Option Port) (s t : State) : Prop := (s.board hand).Change (t.board hand)

section
variable {hand : Option Port}

theorem State.serves.refl (s : State) : s.serves hand s := Board.Change.refl _

theorem State.serves.trans {s t u : State} (h : s.serves hand t) (h' : t.serves hand u) : s.serves hand u :=
  Board.Change.trans h h'

theorem State.serves_of_eq {s t : State} (h : t.board hand = s.board hand) : s.serves hand t := by
  unfold State.serves
  rw [h]
  exact .refl _

theorem State.board_setPort (s : State) (p : Port) (r : PortRecord) :
    (s.setPort p r).board hand =
      { s.board hand with attached := bankSet (s.board hand).attached p r.present } := by
  have attached := congrArg Use.attached (s.use_setPort p r)
  simp only [State.board, attached]
  rfl

/-- A port record replaced by one that is attached exactly when it was is not seen. -/
theorem State.board_setPort_same (s : State) (p : Port) (r : PortRecord) (h : r.present = (s.port p).present) :
    (s.setPort p r).board hand = s.board hand := by
  have attached := congrArg Use.attached (s.use_setPort_same p r h)
  simp only [State.board, attached]
  rfl

@[simp] theorem State.board_setLive (s : State) (k : Slot) (r : Reservation) :
    (s.setLive k r).board hand = s.board hand := rfl

@[simp] theorem State.board_setTenure (s : State) (t : Option Tenure) : (s.setTenure t).board hand = s.board hand := rfl

@[simp] theorem State.board_setBinding (s : State) (p : Port) (c : SelCode) (h : Option Handle) :
    (s.setBinding p c h).board hand = s.board hand := rfl

@[simp] theorem State.board_replaceContribution (s : State) (a b : Reservation) :
    (s.replaceContribution a b).board hand = s.board hand := rfl

@[simp] theorem State.board_raiseYield (s : State) (r : YieldReason) : (s.raiseYield r).board hand = s.board hand := by
  have attached := congrArg Use.attached (s.use_raiseYield r)
  obtain ⟨a, b, e⟩ := s.raiseYield_frame r
  simp only [State.board, attached]
  rw [e]

@[simp] theorem State.board_testYield (s : State) : s.testYield.board hand = s.board hand := by
  have attached := congrArg Use.attached s.use_testYield
  obtain ⟨a, b, e⟩ := s.testYield_frame
  simp only [State.board, attached]
  rw [e]

@[simp] theorem State.board_withdrawDrawing (s : State) (h : Handle) (cls : ResClass) :
    (s.withdrawDrawing h cls).board hand = s.board hand := by
  have attached : (s.withdrawDrawing h cls).use.attached = s.use.attached := by rw [s.use_withdrawDrawing]; rfl
  obtain ⟨a, b, e⟩ := s.withdrawDrawing_frame h cls
  simp only [State.board, attached]
  rw [e]

@[simp] theorem State.board_refillStanding (s : State) (h : Handle) (cls : ResClass) :
    (s.refillStanding h cls).board hand = s.board hand := by
  obtain ⟨b, e⟩ := s.refillStanding_frame h cls
  rw [e]
  rfl

@[simp] theorem State.board_retireRecord (s : State) (k : Slot) : (s.retireRecord k).board hand = s.board hand := by
  cases h : s.liveAt k with
  | none => rw [s.retireRecord_free k h]
  | some r =>
    have attached : (s.retireRecord k).use.attached = s.use.attached := by rw [s.use_retireRecord_live k r h]; rfl
    obtain ⟨a, b, c, d, e, f, g, eq⟩ := s.retireRecord_frame k
    simp only [State.board, attached]
    rw [eq]

@[simp] theorem State.board_retire (s : State) (k : Slot) : (s.retire k).board hand = s.board hand :=
  (State.board_testYield _).trans (s.board_retireRecord k)

@[simp] theorem State.board_retireOwned (s : State) (p : Port) : (s.retireOwned p).board hand = s.board hand := by
  unfold State.retireOwned
  generalize allSlots = l
  induction l generalizing s with
  | nil => rfl
  | cons k l ih =>
    rw [List.foldl_cons, ih]
    split
    · exact s.board_retireRecord k
    · rfl

theorem State.setPort_serves (s : State) (p : Port) (r : PortRecord) (h : r.state ≠ .detached) :
    s.serves hand (s.setPort p r) := by
  have present : r.present = true := by simp [PortRecord.present, h]
  unfold State.serves
  rw [s.board_setPort, present]
  exact .attach _ p

theorem State.setPortState_serves (s : State) (p : Port) (x : PortState) (h : x ≠ .detached) :
    s.serves hand (s.setPortState p x) := s.setPort_serves p _ h

theorem State.endTenure_serves (s : State) (p : Port) (x : PortState) (h : x ≠ .detached) :
    s.serves hand (s.endTenure p x) := s.setPortState_serves p x h

theorem State.place_serves (s : State) (p : Port) (k : NoticeKind) (x : Subject) : s.serves hand (s.place p k x) := by
  unfold State.place
  split
  · exact .refl s
  · rename_i attached
    exact .place (s.board hand) p k x ((s.use_attached p).2 attached)

theorem State.placeIf_serves (s : State) (p : Port) (k : Option NoticeKind) (x : Subject) :
    s.serves hand (s.placeIf p k x) := by
  cases k with
  | none => exact .refl s
  | some k => exact s.place_serves p k x

theorem State.placeTableReset_serves (s : State) : s.serves hand s.placeTableReset := by
  unfold State.placeTableReset
  generalize allPorts = l
  induction l generalizing s with
  | nil => exact .refl s
  | cons p l ih => exact (s.place_serves p .tableReset .none).trans (ih _)

theorem State.makeEntry_serves (s : State) (p : Port) : s.serves hand (s.makeEntry p) :=
  State.serves.trans (t := s.setWaiting p _) (.refl s)
    ((State.setPortState_serves _ p .waiting (by decide)).trans (State.serves_of_eq (State.board_testYield _)))

/-! ## Requests, charges and expiries -/

theorem State.releaseBus_serves (s : State) (p : Port) : s.serves hand (s.releaseBus p) := by
  unfold State.releaseBus
  split
  · exact .refl s
  · split
    · split
      · exact s.endTenure_serves p .idle (by decide)
      · exact State.setPortState_serves (s.setTenure _) p .draining (by decide)
    · exact .refl s

theorem State.requestFalls_serves (s : State) (p : Port) : s.serves hand (s.requestFalls p) := by
  have level : s.serves hand { s with req := bankSet s.req p false } := .refl s
  simp only [State.requestFalls]
  split
  · exact level
  · split
    · refine level.trans (State.serves.trans (t := State.setWaiting _ p none) (.refl _) ?_)
      exact (State.setPortState_serves _ p .idle (by decide)).trans (State.serves_of_eq (State.board_testYield _))
    · exact level.trans (State.releaseBus_serves _ p)
    · exact level.trans (State.releaseBus_serves _ p)
    all_goals exact level

@[simp] theorem State.board_chargeRecord (s : State) (h : Handle) (cost : Nat) :
    (s.chargeRecord h cost).board hand = s.board hand := by
  unfold State.chargeRecord
  split
  · rfl
  · dsimp only
    split
    · split
      · exact State.board_raiseYield _ _
      · rfl
      · rfl
    · rfl

@[simp] theorem State.board_charge (s : State) (cost : Nat) : (s.charge cost).board hand = s.board hand := by
  unfold State.charge
  split
  · rfl
  · dsimp only
    split <;> simp

theorem State.finishDrain_serves (s : State) : s.serves hand s.finishDrain := by
  unfold State.finishDrain
  split
  · exact .refl s
  · split
    · exact s.endTenure_serves _ .idle (by decide)
    · exact .refl s

theorem State.serves.place {s t : State} (h : s.serves hand t) (p : Port) (k : NoticeKind) (x : Subject) :
    s.serves hand (t.place p k x) := h.trans (t.place_serves p k x)

/-- The end of a tenure shows on the board as its holder's port record alone (R97). -/
theorem State.ended_serves (s : State) (p : Port) (r : PortRecord) (v : Vector TableRecord 32) (h : r.state ≠ .detached) :
    s.serves hand { s with
      tenure := none, pendingOrder := s.pendingOrder.map fun _ => .stray, ports := bankSet s.ports p r, table := v } :=
  s.setPort_serves p r h

theorem State.fencePort_serves (s : State) (p : Port) : s.serves hand (s.fencePort p) := by
  have ended := s.ended_serves (hand := hand) p
    { s.port p with state := .fenced, fenceCount := min 15 ((s.port p).fenceCount + 1) }
    (bankMap (fun _ => fenceRecord p) s.table) PortState.noConfusion
  rw [s.fencePort_eq]
  exact (ended.place p .fenced .none).place s.supervisor .portFenced (.port p)

theorem State.forceWithdrawal_serves (s : State) (p : Port) : s.serves hand (s.forceWithdrawal p) := by
  have ended := s.ended_serves (hand := hand) p
    { s.port p with state := .idle, fenceCount := min 15 ((s.port p).fenceCount + 1), lastYield := .forced } s.table
    PortState.noConfusion
  rw [s.forceWithdrawal_eq]
  exact ended.place p .forced .none

theorem State.expireGrace_serves (s : State) (p : Port) : s.serves hand (s.expireGrace p) := by
  unfold State.expireGrace
  split
  · exact s.forceWithdrawal_serves p
  · exact s.fencePort_serves p

theorem State.expireDrain_serves (s : State) (p : Port) : s.serves hand (s.expireDrain p) := by
  rw [s.expireDrain_eq]
  exact s.ended_serves p _ s.table PortState.noConfusion

@[simp] theorem State.board_idleTick (s : State) : s.idleTick.board hand = s.board hand := by
  unfold State.idleTick
  split
  · rfl
  · split
    · exact State.board_testYield _
    · rfl

theorem State.tenureTick_serves (s : State) : s.serves hand s.tenureTick := by
  unfold State.tenureTick
  split
  · exact s.expireGrace_serves _
  · exact s.expireDrain_serves _
  · exact .refl s
  · split
    · exact .refl s
    · exact .refl s
    · exact State.serves_of_eq s.board_idleTick

theorem State.frameTick_serves (s : State) : s.serves hand s.frameTick := by
  unfold State.frameTick
  split <;> exact .refl s

/-! ## The window -/

/-- A notice take removes what it shows, and from an empty set shows NONE (R153, R193). -/
theorem State.takeNotice_serves (s : State) (p : Port) : s.serves hand (s.takeNotice p) := by
  simp only [State.takeNotice]
  split
  · rename_i overrun
    refine .readOut (s.board hand) p _ _ (List.Sublist.refl _) fun e => ?_
    have e : bankGet s.notices p = NoticeSet.initial := e
    simp [e, NoticeSet.initial] at overrun
  · split
    · have shown := Board.Change.readOut (s.board hand) p (bankGet s.notices p)
        { kind := .none, subject := .none, count := 0 } (List.Sublist.refl _) fun e => ⟨e, rfl⟩
      have same : bankSet (s.board hand).notices p (bankGet s.notices p) = (s.board hand).notices :=
        bankSet_bankGet s.notices p
      rw [same] at shown
      exact shown
    · rename_i e first
      refine .readOut (s.board hand) p _ _ List.erase_sublist fun h => ?_
      have h : bankGet s.notices p = NoticeSet.initial := h
      simp [h, NoticeSet.initial, firstRanked] at first

theorem State.windowRead_serves (s : State) (p : Port) (o : Nat) : s.serves hand (s.windowRead p o) := by
  simp only [State.windowRead]
  split
  · exact s.takeNotice_serves p
  · split <;> exact .refl s

theorem State.acceptTrigger_serves (s : State) (p : Port) (d : Byte)
    (h : (s.slot p).state = .idle ∨ (s.slot p).state = .done) : s.serves hand (s.acceptTrigger p d) :=
  .trigger (s.board hand) p (bankSet (s.slot p).area 0 d) h

theorem State.triggerSlot_serves (s : State) (p : Port) (d : Byte) : s.serves hand (s.triggerSlot p d) := by
  have refused : s.serves hand (s.setSlot p { s.slot p with refused := true }) :=
    .store (s.board hand) p (s.slot p).area true
  unfold State.triggerSlot
  split
  · rename_i idle; exact s.acceptTrigger_serves p d (.inl idle)
  · rename_i done; exact s.acceptTrigger_serves p d (.inr done)
  · exact refused
  · exact refused

theorem State.windowStore_serves (s : State) (p : Port) (o : Nat) (d : Byte) : s.serves hand (s.windowStore p o d) := by
  have stored (o : Fin 16) (d : Byte) : s.serves hand (s.storeArea p o d) :=
    .store (s.board hand) p (bankSet (s.slot p).area o d) (s.slot p).refused
  unfold State.windowStore
  split
  · split
    · exact stored 0 0
    · exact s.triggerSlot_serves p d
  · split
    · exact stored _ d
    · split
      · exact State.serves_of_eq (s.board_setPort_same p _ rfl)
      · exact .refl s

theorem State.windowEffect_serves (s : State) (x : Option WindowAccess) (d : Byte) :
    s.serves hand (s.windowEffect x d) := by
  unfold State.windowEffect
  split
  · exact .refl s
  · split
    · exact s.windowStore_serves _ _ d
    · exact s.windowRead_serves _ _

theorem State.readyEvent_serves (s : State) (d : Byte) : s.serves hand (s.readyEvent d) := by
  unfold State.readyEvent
  split
  · exact .refl s
  · split
    · exact .refl s
    · exact .refl s
    · rename_i c rest _
      split
      · exact .refl s
      · have effect : s.serves hand { s.windowEffect c.access d with pendingOrder := rest } :=
          s.windowEffect_serves c.access d
        exact effect.trans ((State.serves_of_eq (State.board_charge _ _)).trans (State.finishDrain_serves _))

theorem State.readyOf_serves (s : State) (is : WindowAccess → Bool) (d : Byte) : s.serves hand (s.readyOf is d) := by
  unfold State.readyOf
  split
  · split
    · exact s.readyEvent_serves d
    · exact .refl s
  · exact s.readyEvent_serves d

/-! ## Visits -/

/-- A refill shows on the board as the notices it brings (R56). -/
theorem State.refilledAt_serves (s : State) (k : Slot) (r : Reservation) (short : Bool) (notice : Option NoticeKind) :
    s.serves hand (s.refilledAt k r short notice) := by
  have told := (s.placeIf_serves (hand := hand) r.owner notice (.handle (s.handleAt k))).trans
    (State.placeIf_serves _ r.owner (if short then some .shortfall else none) (.handle (s.handleAt k)))
  rw [s.placeIf_placeIf_eq s rfl rfl] at told
  exact told

theorem State.visitActive_serves (s : State) (k : Slot) (r : Reservation) (hst : r.state = .active) :
    s.serves hand (s.visitActive k r) := by
  rw [s.visitActive_eq k r hst _ _ rfl rfl]
  refine State.serves.trans ?_ (State.serves_of_eq (State.board_testYield _))
  split
  · exact (s.refilledAt_serves k r _ _).trans (State.serves_of_eq (State.board_withdrawDrawing _ _ _))
  · exact (s.refilledAt_serves k r _ _).trans (State.serves_of_eq (State.board_refillStanding _ _ _))

theorem State.sweepStep_serves (s : State) : s.serves hand s.sweepStep := by
  unfold State.sweepStep
  split
  · exact .refl s
  · rename_i k _
    refine State.serves.trans (t := s.visitSlot k) ?_ (.refl _)
    unfold State.visitSlot
    split
    · exact .refl s
    · rename_i r _
      split
      · rename_i hst; exact s.visitActive_serves k r hst
      · exact State.serves_of_eq (State.board_testYield _)
      · exact (State.serves_of_eq (s.board_retireRecord k)).trans
          ((State.place_serves _ r.owner .retired _).trans (State.serves_of_eq (State.board_testYield _)))

/-- The end of a walk that writes its reply (R172, R185). -/
theorem State.finish_serves (s : State) (w : Walk) (hw : s.walk.bind Walk.owed = some w.issuer) (n : Nat)
    (bs : List Byte) : s.serves hand (State.complete { s with walk := none } w.issuer .done n bs) := by
  have written : s.serves hand
      (State.setSlot { s with walk := none } w.issuer ((s.slot w.issuer).answered .done n bs)) :=
    Board.Change.finish (s.board hand) w.issuer .done n bs hw (.done n bs)
  exact written.place w.issuer .cmdDone .none

/-- A walk that goes on owes the reply it owed. -/
theorem State.board_setWalk (s : State) (x : Option Walk) (h : x.bind Walk.owed = s.walk.bind Walk.owed) :
    ({ s with walk := x } : State).board hand = s.board hand := by
  unfold State.board
  exact congrArg _ h

theorem State.resetTableStep_serves (s : State) (w : Walk) (retired : Nat) (discarded : Bool) (hw : s.walk = some w)
    (hk : w.kind = .resetTable retired discarded) : s.serves hand (s.resetTableStep w retired discarded) := by
  have owed : s.walk.bind Walk.owed = if discarded then none else some w.issuer := by
    rw [hw, Option.bind_some, Walk.owed, hk]
  have visited : s.serves hand (s.retire w.next) := State.serves_of_eq (s.board_retire w.next)
  have walk : (s.retire w.next).walk = s.walk := by
    obtain ⟨a, b, c, d, e, f, g, h⟩ := s.retire_frame w.next; rw [h]
  simp only [State.resetTableStep]
  split
  · exact visited.trans (State.serves_of_eq (State.board_setWalk _ _ (by rw [walk, owed]; rfl)))
  · have told := visited.trans (s.retire w.next).placeTableReset_serves
    have walk : (s.retire w.next).placeTableReset.walk = s.walk := by
      obtain ⟨a, h⟩ := (s.retire w.next).placeTableReset_frame; rw [h, walk]
    split
    · rename_i gone
      exact told.trans (State.serves_of_eq (State.board_setWalk _ _ (by simp [walk, owed, gone])))
    · rename_i kept
      exact told.trans (State.finish_serves _ w (by simp [walk, owed, kept]) 1 _)

theorem State.walkStep_serves (s : State) : s.serves hand s.walkStep := by
  unfold State.walkStep
  split
  · exact .refl s
  · rename_i w hw
    split
    · rename_i listed start found hk
      have owed : s.walk.bind Walk.owed = some w.issuer := by rw [hw, Option.bind_some, Walk.owed, hk]
      simp only [State.listStep]
      split
      · exact State.serves_of_eq (s.board_setWalk _ (owed ▸ rfl))
      · exact s.finish_serves w owed _ _
    · rename_i retired discarded hk
      exact s.resetTableStep_serves w retired discarded hw hk

end

end Sys2Proof.Machine

namespace Sys2Proof.Machine

/-! ## Takes -/

/-- A take's body, run with its port in hand, changes the board lawfully and answers that port or begins its walk. -/
def TakeServes (body : Port → Vector Byte 16 → State → State) : Prop :=
  ∀ p c (s : State), (s.board (some p)).Change ((body p c s).board none)

/-- A completion answers the port in hand and tells it (R145, R147, R152). -/
theorem State.complete_serves (s : State) (p : Port) (x : ReplyStatus) (n : Nat) (bs : List Byte) (h : Answer x n bs) :
    (s.board (some p)).Change ((s.complete p x n bs).board none) := by
  have answered : (s.board (some p)).Change ((s.setSlot p ((s.slot p).answered x n bs)).board none) :=
    .answer (s.board (some p)) p x n bs rfl h
  exact answered.trans (State.place_serves _ p .cmdDone .none)

theorem State.serves.complete {s t : State} {p : Port} (h : s.serves (some p) t) (n : Nat) (bs : List Byte) :
    (s.board (some p)).Change ((t.complete p .done n bs).board none) :=
  Board.Change.trans h (t.complete_serves p .done n bs (.done n bs))

/-- A status that ends a command (R145). -/
def ReplyStatus.ends (x : ReplyStatus) : Prop := x ≠ .none ∧ x ≠ .pending

theorem State.refuse_serves (s : State) (p : Port) (x : ReplyStatus) (h : x.ends) :
    (s.board (some p)).Change ((s.refuse p x).board none) :=
  s.complete_serves p x 0 [] ⟨h.1, h.2, fun _ => ⟨rfl, rfl⟩⟩

theorem State.ruling_ends (s : State) (raise : Nat) (preempt : Bool) (x : ReplyStatus)
    (h : s.ruling raise preempt = some x) : x.ends := by
  unfold State.ruling at h
  split at h
  · cases h; exact ⟨nofun, nofun⟩
  · split at h
    · cases h; exact ⟨nofun, nofun⟩
    · cases h

theorem State.openingSlot_ends (s : State) (owner : Port) (t : OpenTerms) (x : ReplyStatus)
    (h : s.openingSlot owner t = .error x) : x.ends := by
  unfold State.openingSlot at h
  split at h
  · cases h; exact ⟨nofun, nofun⟩
  · split at h
    · cases h; exact ⟨nofun, nofun⟩
    · split at h
      · rename_i y hy
        cases h
        exact s.ruling_ends _ _ _ hy
      · cases h

theorem State.changeRuling_ends (s : State) (ch : Changes) (r : Reservation) (x : ReplyStatus)
    (h : s.changeRuling ch r = some x) : x.ends := by
  simp only [State.changeRuling] at h
  split at h
  · exact s.ruling_ends _ _ _ h
  · cases h

theorem State.frameRuling_ends (s : State) (f : FrameConfig) (x : ReplyStatus) (h : s.frameRuling f = some x) :
    x.ends := by
  unfold State.frameRuling at h
  split at h
  · cases h; exact ⟨nofun, nofun⟩
  · split at h
    · cases h; exact ⟨nofun, nofun⟩
    · cases h

theorem TakeServes.supervisorOnly {body : Port → Vector Byte 16 → State → State} (hb : TakeServes body) :
    TakeServes (supervisorOnly body) := by
  intro p c s
  unfold Machine.supervisorOnly
  split
  · exact hb p c s
  · exact s.refuse_serves p _ ⟨nofun, nofun⟩

theorem openTake_serves : TakeServes openTake := by
  intro p c s
  unfold openTake
  split
  · exact s.refuse_serves p _ ⟨nofun, nofun⟩
  · split
    · rename_i x hx; exact s.refuse_serves p x (s.openingSlot_ends _ _ x hx)
    · rename_i t _ _ k _
      have admitted : s.serves (some p) (s.admitOpening k p t).1 := .refl s
      exact admitted.complete _ _

theorem openForTake_serves : TakeServes openForTake := by
  intro p c s
  unfold openForTake
  split
  · rename_i owner t _ _
    split
    · exact s.refuse_serves p _ ⟨nofun, nofun⟩
    · split
      · rename_i x hx; exact s.refuse_serves p x (s.openingSlot_ends _ _ x hx)
      · rename_i k _
        have admitted : s.serves (some p) (s.admitOpening k owner t).1 := .refl s
        exact (admitted.place owner .opened _).complete _ _
  · exact s.refuse_serves p _ ⟨nofun, nofun⟩

theorem State.board_applyChanges (s : State) (ch : Changes) (h : Handle) (r : Reservation) (hand : Option Port) :
    (s.applyChanges ch h r).board hand = s.board hand := by
  simp only [State.applyChanges]
  split
  · rw [State.board_testYield, State.board_setLive, State.board_replaceContribution]
  · rw [State.board_setLive, State.board_replaceContribution]

theorem modifyTake_serves : TakeServes modifyTake := by
  intro p c s
  simp only [modifyTake]
  split
  · exact s.refuse_serves p _ ⟨nofun, nofun⟩
  · split
    · exact s.refuse_serves p _ ⟨nofun, nofun⟩
    · split
      · exact s.refuse_serves p _ ⟨nofun, nofun⟩
      · split
        · exact s.refuse_serves p _ ⟨nofun, nofun⟩
        · split
          · exact s.refuse_serves p _ ⟨nofun, nofun⟩
          · split
            · rename_i x hx; exact s.refuse_serves p x (s.changeRuling_ends _ _ x hx)
            · exact (State.serves_of_eq (s.board_applyChanges _ _ _ _)).complete _ _

theorem renewTake_serves : TakeServes renewTake := by
  intro p c s
  simp only [renewTake]
  split
  · exact s.refuse_serves p _ ⟨nofun, nofun⟩
  · split
    · exact s.refuse_serves p _ ⟨nofun, nofun⟩
    · exact (State.serves_of_eq (s.board_setLive _ _)).complete _ _

theorem closeTake_serves : TakeServes closeTake := by
  intro p c s
  simp only [closeTake]
  split
  · exact s.refuse_serves p _ ⟨nofun, nofun⟩
  · split
    · exact s.refuse_serves p _ ⟨nofun, nofun⟩
    · exact (State.serves_of_eq (s.board_retire _)).complete _ _

theorem bindTake_serves : TakeServes bindTake := by
  intro p c s
  simp only [bindTake]
  split
  · exact s.refuse_serves p _ ⟨nofun, nofun⟩
  · split
    · exact s.refuse_serves p _ ⟨nofun, nofun⟩
    · split
      · exact s.refuse_serves p _ ⟨nofun, nofun⟩
      · exact (State.serves_of_eq (s.board_setBinding _ _ _)).complete _ _

theorem unbindTake_serves : TakeServes unbindTake := by
  intro p c s
  simp only [unbindTake]
  split
  · exact s.refuse_serves p _ ⟨nofun, nofun⟩
  · split <;> exact (State.serves_of_eq (s.board_setBinding _ _ _)).complete _ _

theorem queryTake_serves : TakeServes queryTake := by
  intro p c s
  simp only [queryTake]
  split
  · exact s.refuse_serves p _ ⟨nofun, nofun⟩
  · split
    · exact s.refuse_serves p _ ⟨nofun, nofun⟩
    · exact (State.serves.refl s).complete _ _

theorem State.beginWalk_serves (s : State) (p : Port) (kind : WalkKind) (h : ∀ n, kind ≠ .resetTable n true) :
    (s.board (some p)).Change ((s.beginWalk p kind).board none) := by
  have begun := Board.Change.begin (s.board (some p)) p rfl
  have owed : Walk.owed { issuer := p, next := 0, ticks := 0, kind := kind } = some p :=
    (Walk.owed_eq_some _ p).2 ⟨rfl, h⟩
  have board : (s.beginWalk p kind).board none =
      { s.board (some p) with
        slots := bankSet s.slots p { bankGet s.slots p with state := .running }, hand := none, awaited := some p } :=
    congrArg (Board.mk _ _ _ _ _ _) owed
  rw [board]
  exact begun

theorem listTake_serves : TakeServes listTake := by
  intro p c s
  unfold listTake
  split
  · exact s.beginWalk_serves p _ fun _ => nofun
  · exact s.refuse_serves p _ ⟨nofun, nofun⟩

theorem resetTableTake_serves : TakeServes resetTableTake := fun p _ s => s.beginWalk_serves p _ fun _ => nofun

theorem revokeTake_serves : TakeServes revokeTake := by
  intro p c s
  simp only [revokeTake]
  split
  · exact s.refuse_serves p _ ⟨nofun, nofun⟩
  · exact (State.serves.place (State.serves_of_eq (s.board_retire _)) _ .revoked _).complete _ _

theorem suspendTake_serves : TakeServes suspendTake := by
  intro p c s
  simp only [suspendTake]
  split
  · exact s.refuse_serves p _ ⟨nofun, nofun⟩
  · split
    · exact s.refuse_serves p _ ⟨nofun, nofun⟩
    · exact (State.serves.place (State.serves_of_eq (by simp)) _ .suspended _).complete _ _

theorem resumeTake_serves : TakeServes resumeTake := by
  intro p c s
  simp only [resumeTake]
  split
  · exact s.refuse_serves p _ ⟨nofun, nofun⟩
  · split
    · exact s.refuse_serves p _ ⟨nofun, nofun⟩
    · exact ((State.serves_of_eq (s.board_setLive _ _)).trans (State.placeIf_serves _ _ _ _)).complete _ _

theorem demoteTake_serves : TakeServes demoteTake := by
  intro p c s
  unfold demoteTake
  split
  · exact s.refuse_serves p _ ⟨nofun, nofun⟩
  · rename_i q _
    have moved : s.serves (some p) { s with pointers := Vector.replicate 6 q } := .refl s
    exact moved.complete _ _

theorem State.clearFence_serves (s : State) (q : Port) (hand : Option Port) : s.serves hand (s.clearFence q) := by
  have cleared : ∀ (l : List Slot) (s : State), s.serves hand (l.foldl (fun s k => s.clearFenceAt q k) s) := by
    intro l
    induction l with
    | nil => exact .refl
    | cons k l ih =>
      refine fun s => State.serves.trans (t := s.clearFenceAt q k) ?_ (ih _)
      unfold State.clearFenceAt
      split
      · exact .refl s
      · split
        · exact (State.serves_of_eq (s.board_setLive _ _)).trans (State.placeIf_serves _ _ _ _)
        · exact .refl s
  simp only [State.clearFence]
  split
  · exact (cleared allSlots s).trans (State.makeEntry_serves _ q)
  · exact (cleared allSlots s).trans (State.setPortState_serves _ q .idle nofun)

theorem clearFenceTake_serves : TakeServes clearFenceTake := by
  intro p c s
  unfold clearFenceTake
  split
  · exact s.refuse_serves p _ ⟨nofun, nofun⟩
  · split
    · exact s.refuse_serves p _ ⟨nofun, nofun⟩
    · exact (s.clearFence_serves _ _).complete _ _

theorem setFrameTake_serves : TakeServes setFrameTake := by
  intro p c s
  simp only [setFrameTake]
  split
  · exact s.refuse_serves p _ ⟨nofun, nofun⟩
  · split
    · rename_i x hx; exact s.refuse_serves p x (s.frameRuling_ends _ x hx)
    · have pending : s.serves (some p) { s with pendingConfig := some (frameFields c) } := .refl s
      exact pending.complete _ _

theorem queryPortTake_serves : TakeServes queryPortTake := by
  intro p c s
  unfold queryPortTake
  split
  · exact s.refuse_serves p _ ⟨nofun, nofun⟩
  · exact (State.serves.refl s).complete _ _

theorem badTake_serves : TakeServes badTake := fun p _ s => s.refuse_serves p _ ⟨nofun, nofun⟩

/-- The take of any code (R150, R198). -/
theorem takeOf_serves (b : Byte) : TakeServes (takeOf b) := by
  intro p c s
  unfold takeOf
  split
  · exact openTake_serves p c s
  · exact modifyTake_serves p c s
  · exact renewTake_serves p c s
  · exact closeTake_serves p c s
  · exact bindTake_serves p c s
  · exact unbindTake_serves p c s
  · exact queryTake_serves p c s
  · exact listTake_serves p c s
  · exact openForTake_serves.supervisorOnly p c s
  · exact revokeTake_serves.supervisorOnly p c s
  · exact suspendTake_serves.supervisorOnly p c s
  · exact resumeTake_serves.supervisorOnly p c s
  · exact demoteTake_serves.supervisorOnly p c s
  · exact clearFenceTake_serves.supervisorOnly p c s
  · exact setFrameTake_serves.supervisorOnly p c s
  · exact resetTableTake_serves.supervisorOnly p c s
  · exact queryPortTake_serves.supervisorOnly p c s
  · exact badTake_serves p c s

/-- A take that is due has its port in hand until the body answers it; no walk runs beside it (R147). -/
theorem State.take_serves (s : State) (isCode : Byte → Bool) {body : Port → Vector Byte 16 → State → State}
    (hb : TakeServes body) : s.serves none (s.take isCode body) := by
  rcases s.take_cases isCode body with e | ⟨p, rest, c, ⟨-, hw, hq, -, -⟩, -, e⟩
  · rw [e]; exact .refl s
  · rw [e]
    have walk : (s.board none).awaited = none := by simp [State.board, hw]
    have taken : (s.board none).Change (State.board { s with cmdQueue := rest } (some p)) :=
      .take (s.board none) p rest hq rfl walk
    exact taken.trans (hb p c { s with cmdQueue := rest })

/-! ## The events that may wait no longer -/

theorem State.commandStep_serves (s : State) : s.serves none s.commandStep := by
  unfold State.commandStep
  split
  · exact s.walkStep_serves
  · exact s.take_serves _ fun p c => takeOf_serves (byteAt c 0) p c

theorem State.tickWalk_serves (s : State) : s.serves none s.tickWalk := by
  unfold State.tickWalk
  split
  · exact .refl s
  · rename_i w hw
    refine State.overdueWalk_keeps (law := s.serves none) (fun t h => h.trans t.walkStep_serves) _ _ ?_
    exact State.serves_of_eq (s.board_setWalk _ (by rw [hw]; rfl))

theorem State.takeOverdue_serves (s : State) : s.serves none s.takeOverdue := by
  unfold State.takeOverdue
  split
  · exact s.tickWalk_serves
  · exact State.finishSweep_keeps (law := s.serves none) (fun t h => h.trans t.commandStep_serves)
      (fun t h => h.trans t.sweepStep_serves) s.tickWalk_serves

/-! ## Reset and detach -/

/-- Power-on reset abandons everything; the straps of the release decide which ports are attached (R125). -/
theorem State.powerOn_serves (s : State) (v : Vector PortRecord 8) : s.serves none { s.powerOn with ports := v } := by
  have abandoned := Board.Change.reset (s.board none) (bankMap (fun _ r => PortRecord.present r) v)
  exact abandoned

theorem State.board_detachStart (s : State) (p : Port) :
    (((s.detachTenure p).setWaiting p none).setPortState p .detached).board none =
      { s.board none with attached := bankSet (s.board none).attached p false } := by
  have detached (u : State) : (u.setPortState p .detached).board none =
      { u.board none with attached := bankSet (u.board none).attached p false } := u.board_setPort p _
  have ended : (s.endTenure p .detached).board none =
      { s.board none with attached := bankSet (s.board none).attached p false } := detached s
  rw [detached]
  change { (s.detachTenure p).board none with attached := bankSet ((s.detachTenure p).board none).attached p false } = _
  unfold State.detachTenure
  split
  · rfl
  · split
    · rw [ended]
      simp
    · rfl

theorem State.board_unbindAll (s : State) (p : Port) : (s.unbindAll p).board none = s.board none := rfl

/-- What a detach does to the walk: a discarded reply is owed to none, and a stopped walk owes none (R130). -/
theorem State.detachCommands_owed (s : State) (p : Port) :
    (s.detachCommands p).walk.bind Walk.owed = (s.walk.bind Walk.owed).filter fun q => decide (q ≠ p) := by
  cases hw : s.walk with
  | none => simp [State.detachCommands, hw]
  | some w =>
    simp only [State.detachCommands, hw, Option.bind_some]
    by_cases hp : w.issuer = p
    · cases hk : w.kind with
      | list listed start found => simp [hp, hk, Walk.owed, Option.filter_some]
      | resetTable n discarded => cases discarded <;> simp [hp, hk, Walk.owed, Option.filter_some]
    · rw [if_neg hp, Option.bind_some]
      cases hk : w.kind with
      | list listed start found => simp [hp, hk, Walk.owed, Option.filter_some]
      | resetTable n discarded => cases discarded <;> simp [hp, hk, Walk.owed, Option.filter_some]

theorem State.board_detachCommands (s : State) (p : Port) :
    (s.detachCommands p).board none =
      { s.board none with
        slots := bankSet (s.board none).slots p CommandSlot.initial
        queue := (s.board none).queue.filter fun q => decide (q ≠ p)
        awaited := (s.board none).awaited.filter fun q => decide (q ≠ p) } :=
  congrArg (Board.mk _ _ _ _ _ _) (s.detachCommands_owed p)

/-- A detach is the departure of the port, and the notice of it for the supervisor (R130, R131). -/
theorem State.detachPort_serves (s : State) (p : Port) : s.serves none (s.detachPort p) := by
  have departed := Board.Change.depart (s.board none) p rfl
  unfold State.detachPort
  refine State.serves.trans ?_ (State.serves_of_eq (State.board_testYield _))
  generalize hu : ((((s.detachTenure p).setWaiting p none).setPortState p .detached).retireOwned p).unbindAll p = u
  have start : u.board none = { s.board none with attached := bankSet (s.board none).attached p false } := by
    rw [← hu, State.board_unbindAll, State.board_retireOwned, s.board_detachStart]
  have emptied : s.serves none (((u.detachCommands p).setNotices p NoticeSet.initial).setLatch p Latch.initial) := by
    have board : (((u.detachCommands p).setNotices p NoticeSet.initial).setLatch p Latch.initial).board none =
        { (u.detachCommands p).board none with
          notices := bankSet ((u.detachCommands p).board none).notices p NoticeSet.initial
          latches := bankSet ((u.detachCommands p).board none).latches p Latch.initial } := rfl
    unfold State.serves
    rw [board, u.board_detachCommands p, start]
    exact departed
  simp only [State.detachNotices]
  split
  · exact emptied
  · exact emptied.place _ .portDetached _

/-! ## Every command -/

theorem State.serves.next {s t : State} (h : s.serves none t) : GoesOnWith (s.serves none) (.next t) := ⟨t, rfl, h⟩

/-- An event that arises only under a condition, and changes nothing where it does not arise (log entry 2). -/
theorem State.serves.unless {s t : State} (c : Prop) [Decidable c] (h : s.serves none t) :
    GoesOnWith (s.serves none) (if c then .next s else .next t) := by
  split
  · exact (State.serves.refl s).next
  · exact h.next

theorem execResetRelease_serves (sup : Port) (wb : BitVec 4) (s : State) :
    GoesOnWith (s.serves none) (execResetRelease sup wb s) := by
  unfold execResetRelease
  split
  · exact State.serves.next (s.powerOn_serves _)
  · exact (State.serves.refl s).next

theorem execAttach_serves (p : Port) (s : State) : GoesOnWith (s.serves none) (execAttach p s) := by
  have level : s.serves none { s with pres := bankSet s.pres p true } := .refl s
  simp only [execAttach]
  split
  · exact level.next
  · split
    · exact (level.trans (State.setPort_serves _ p .attached nofun)).next
    · exact level.next

theorem execDetach_serves (p : Port) (s : State) : GoesOnWith (s.serves none) (execDetach p s) := by
  have level : s.serves none { s with pres := bankSet s.pres p false } := .refl s
  simp only [execDetach]
  split
  · exact level.next
  · split
    · exact level.next
    · exact (level.trans (State.detachPort_serves _ p)).next

theorem execRequest_serves (p : Port) (c : SelCode) (s : State) : GoesOnWith (s.serves none) (execRequest p c s) := by
  have level : s.serves none { s with sel := bankSet s.sel p c, req := bankSet s.req p true } := .refl s
  simp only [execRequest]
  split
  · exact level.next
  · split
    · exact (level.trans (State.makeEntry_serves _ p)).next
    · exact level.next

theorem execAddressStrobe_serves (a : Address) (w : Bool) (s : State) :
    GoesOnWith (s.serves none) (execAddressStrobe a w s) := by
  unfold execAddressStrobe
  split
  · exact (State.serves.refl s).next
  · split <;> exact State.serves.next (.refl s)

theorem execGrantDecision_serves (s : State) : GoesOnWith (s.serves none) (execGrantDecision s) := by
  unfold execGrantDecision
  split
  · exact (State.serves.refl s).next
  · split
    · exact (State.serves.refl s).next
    · rename_i g p _
      exact State.serves.next (s.setPortState_serves p .granted nofun)

theorem execGraceExpiry_serves (s : State) : GoesOnWith (s.serves none) (execGraceExpiry s) := by
  unfold execGraceExpiry
  split
  · exact (s.expireGrace_serves _).next
  · exact (State.serves.refl s).next

theorem execDrainExpiry_serves (s : State) : GoesOnWith (s.serves none) (execDrainExpiry s) := by
  unfold execDrainExpiry
  split
  · exact (s.expireDrain_serves _).next
  · exact (State.serves.refl s).next

theorem exec_serves (i : Instr) (s : State) : GoesOnWith (s.serves none) (exec i s) := by
  have taken {body : Port → Vector Byte 16 → State → State} (isCode : Byte → Bool) (hb : TakeServes body) :
      GoesOnWith (s.serves none) (.next (s.take isCode body)) := (s.take_serves isCode hb).next
  cases i with
  | resetAssert => exact State.serves.next (s.powerOn_serves _)
  | resetRelease sup wb => exact execResetRelease_serves sup wb s
  | attach p => exact execAttach_serves p s
  | detach p => exact execDetach_serves p s
  | request p c => exact execRequest_serves p c s
  | withdrawal p => exact (s.requestFalls_serves p).next
  | release p => exact (s.requestFalls_serves p).next
  | addressStrobe a w => exact execAddressStrobe_serves a w s
  | ready d => exact (s.readyEvent_serves d).next
  | idleLimit => exact State.serves.unless _ (State.serves_of_eq s.board_idleTick)
  | graceExpiry => exact execGraceExpiry_serves s
  | drainExpiry => exact execDrainExpiry_serves s
  | boundary => exact State.serves.unless _ (t := s.takeOverdue.boundaryEvent) s.takeOverdue_serves
  | sweepVisit => exact State.serves.unless _ s.sweepStep_serves
  | grantDecision => exact execGrantDecision_serves s
  | trigger v => exact (s.readyOf_serves _ v).next
  | windowWrite v => exact (s.readyOf_serves _ v).next
  | portControlWrite v => exact (s.readyOf_serves _ v).next
  | noticeTake => exact (s.readyOf_serves _ 0).next
  | timeSnapshot => exact (s.readyOf_serves _ 0).next
  | takeBadCommand => exact taken _ badTake_serves
  | takeOpen => exact taken _ openTake_serves
  | takeModify => exact taken _ modifyTake_serves
  | takeRenew => exact taken _ renewTake_serves
  | takeClose => exact taken _ closeTake_serves
  | takeBind => exact taken _ bindTake_serves
  | takeUnbind => exact taken _ unbindTake_serves
  | takeQuery => exact taken _ queryTake_serves
  | takeList => exact taken _ listTake_serves
  | listVisit => exact State.serves.unless _ s.walkStep_serves
  | takeOpenFor => exact taken _ openForTake_serves.supervisorOnly
  | takeRevoke => exact taken _ revokeTake_serves.supervisorOnly
  | takeSuspend => exact taken _ suspendTake_serves.supervisorOnly
  | takeResume => exact taken _ resumeTake_serves.supervisorOnly
  | takeDemote => exact taken _ demoteTake_serves.supervisorOnly
  | takeClearFence => exact taken _ clearFenceTake_serves.supervisorOnly
  | takeSetFrame => exact taken _ setFrameTake_serves.supervisorOnly
  | takeResetTable => exact taken _ resetTableTake_serves.supervisorOnly
  | resetTableVisit => exact State.serves.unless _ s.walkStep_serves
  | takeQueryPort => exact taken _ queryPortTake_serves.supervisorOnly
  | tick =>
    exact State.serves.unless _
      (s.takeOverdue_serves.trans ((State.tenureTick_serves _).trans (State.frameTick_serves _)))

/-- A law of the board that every change keeps, every step keeps. -/
theorem step_keepsBoard {law : Board → Prop} (keeps : ∀ {b c : Board}, b.Change c → law b → law c) {s t : State}
    (h : law (s.board none)) (hstep : step s = .next t) : law (t.board none) := by
  refine step_keepsLaw (law := fun s => law (s.board none)) (fun _ _ h => h) (fun i s h => ?_) h hstep
  obtain ⟨t, ht, served⟩ := exec_serves i s
  exact ⟨t, ht, keeps served h⟩

/-- Settles O54: every change of the board keeps the laws of the notice sets. -/
theorem noticeSetsKeepTheirLaws : Obligations.NoticeSetsKeepTheirLaws := by
  intro s t hs hstep
  rw [← s.board_noticesSound none] at hs
  rw [← t.board_noticesSound none]
  exact step_keepsBoard Board.Change.noticesSound hs hstep

/-- Settles O57: every change of the board keeps the queue, the slots and their replies in agreement. -/
theorem queueAndSlotsAgree : Obligations.QueueAndSlotsAgree := by
  intro s t hs hstep
  rw [← s.board_commandsSound] at hs
  rw [← t.board_commandsSound]
  exact step_keepsBoard Board.Change.commandsSound hs hstep

end Sys2Proof.Machine

namespace Sys2Proof.Machine

/-! # Reset and attach -/

/-- Settles O2: power-on reset is the reset state but for the pin levels, the straps and the commands that wait. -/
theorem resetAssertGivesResetValues : Obligations.ResetAssertGivesResetValues := fun _ => rfl

theorem execResetRelease_low (sup : Port) (wb : BitVec 4) (s : State) (h : s.rstLow = true) :
    execResetRelease sup wb s = .next
      { s.powerOn with
        rstLow := false, supervisor := sup, windowBase := wb
        ports :=
          bankMap (fun _ present => { PortRecord.initial with state := if present then .idle else .detached }) s.pres } :=
  if_pos h

/-- Settles O3: a release from RST# low samples the straps and PRESn, and RST# high does not rise. -/
theorem resetReleaseSamplesStraps : Obligations.ResetReleaseSamplesStraps := by
  refine fun sup wb s => ⟨fun low => ⟨_, execResetRelease_low sup wb s low, rfl, rfl, rfl, fun p => ?_, rfl⟩, fun high => ?_⟩
  · exact bankGet_bankMap _ _ p
  · exact if_neg (by simp [high])

theorem execAttach_detached (p : Port) (s : State) (hr : s.rstLow = false) (hd : (s.port p).state = .detached) :
    execAttach p s = .next (State.setPort { s with pres := bankSet s.pres p true } p .attached) := by
  simp [execAttach, hr, hd]

theorem execAttach_level (p : Port) (s : State) (h : s.rstLow = true ∨ (s.port p).state ≠ .detached) :
    execAttach p s = .next { s with pres := bankSet s.pres p true } := by
  rcases h with low | attached
  · simp [execAttach, low]
  · simp [execAttach, attached]

/-- Settles O4: the rise attaches a DETACHED port, and elsewhere moves the level alone. -/
theorem attachMakesDetachedPortIdle : Obligations.AttachMakesDetachedPortIdle :=
  fun p s => ⟨fun ⟨hr, hd⟩ => execAttach_detached p s hr hd, execAttach_level p s⟩

/-! # The window -/

theorem slotStateCode_toNat (x : SlotState) : (slotStateCode x).toNat =
    match x with | .idle => 0 | .queued => 1 | .running => 2 | .done => 3 := by
  cases x <;> rfl

/-- Bit 7 set beside a value below 128 adds 128. -/
theorem flagged_toNat (b : Byte) (flag : Bool) (h : b.toNat < 128) :
    (b ||| (if flag then 0x80 else 0x00)).toNat = b.toNat + (if flag then 128 else 0) := by
  cases flag with
  | false => simp
  | true =>
    have apart := Nat.two_pow_add_eq_or_of_lt (i := 7) h 1
    rw [BitVec.toNat_or, Nat.or_comm]
    exact apart.symm.trans (Nat.add_comm _ _)

theorem CommandSlot.statusByte_toNat (c : CommandSlot) : c.statusByte.toNat =
    (match c.state with | .idle => 0 | .queued => 1 | .running => 2 | .done => 3) + (if c.refused then 128 else 0) := by
  have code := slotStateCode_toNat c.state
  rw [CommandSlot.statusByte, flagged_toNat _ _ (by rw [code]; cases c.state <;> decide), code]

theorem NoticeSet.countByte_toNat (n : NoticeSet) (h : n.entries.length ≤ 16) :
    n.countByte.toNat = n.entries.length + (if n.overrun then 128 else 0) := by
  have count : (lowByte n.entries.length).toNat = n.entries.length := Nat.mod_eq_of_lt (by omega)
  rw [NoticeSet.countByte, flagged_toNat _ _ (by omega), count]

theorem handleWord_lt (h : Handle) : handleWord h < 65536 := by
  have := h.generation.isLt
  have := h.slot.isLt
  unfold handleWord
  omega

section
variable (s : State) (p : Port)

theorem State.windowByte_area (k : Fin 16) : s.windowByte p k.val = bankGet (s.slot p).area k := by
  rw [← byteAt_bank]
  exact if_pos k.isLt

theorem State.windowByte_data (k : Fin 30) : s.windowByte p (0x12 + k.val) = bankGet (s.slot p).data k := by
  have := k.isLt
  simp (disch := omega) only [State.windowByte, if_neg, if_pos, Nat.add_sub_cancel_left, byteAt_bank]

/-- The two subject bytes are those of the latch (R199). -/
theorem State.windowByte_subject (a b : Byte) (h : subjectBytes (bankGet s.latches p).subject = [a, b]) :
    s.windowByte p 0x39 = a ∧ s.windowByte p 0x3A = b := by
  change (subjectBytes (bankGet s.latches p).subject).getD 0 0 = a ∧ (subjectBytes (bankGet s.latches p).subject).getD 1 0 = b
  rw [h]
  exact ⟨rfl, rfl⟩

/-- Every two-byte field of the configuration in range reads back from its two offsets (R46, R199). -/
theorem State.windowByte_config (h : frameInRange s.config = true) :
    [0x40, 0x42, 0x44, 0x46, 0x48, 0x4A].map (fun o => (s.windowByte p o).toNat + 256 * (s.windowByte p (o + 1)).toNat) =
      [s.config.capacity, s.config.reserve, s.config.frameTicks, s.config.grace, s.config.idle, s.config.spare] := by
  obtain ⟨⟨-, capacity⟩, ⟨-, reserve⟩, ⟨-, ticks⟩, ⟨-, grace⟩, ⟨-, idle⟩, -, spare⟩ := (frameInRange_iff _).1 h
  have range : ∀ n ∈ [s.config.capacity, s.config.reserve, s.config.frameTicks, s.config.grace, s.config.idle,
      s.config.spare], n < 65536 := by
    simp only [List.forall_mem_cons, List.not_mem_nil, IsEmpty.forall_iff, implies_true, and_true]
    omega
  exact (List.map_congr_left fun n hn => lowByte_add_highByte n (range n hn)).trans (List.map_id _)

theorem State.windowByte_beyond (o : Nat) (h : 0x4C ≤ o) : s.windowByte p o = 0 := by
  simp (disch := omega) only [State.windowByte, if_neg]

end

/-- Settles O14: the codes are the tables of R199, and each offset shows its byte of the holder's own records. -/
theorem windowShowsTheHoldersOwnBytes : Obligations.WindowShowsTheHoldersOwnBytes := by
  refine ⟨rfl, rfl, rfl, rfl, rfl, fun s p => ⟨s.windowByte_area p, rfl, rfl, s.windowByte_data p, rfl,
    (s.slot p).statusByte_toNat, rfl, rfl, (bankGet s.notices p).countByte_toNat, rfl, rfl, ?_, rfl, fun h hs => ?_,
    fun q hs => s.windowByte_subject p _ _ (by rw [hs]; rfl), fun hs => s.windowByte_subject p _ _ (by rw [hs]; rfl), rfl,
    lowByte_add_highByte _ (bankGet s.snapshots p).frameNumber.isLt, lowByte_add_highByte _, s.windowByte_config p,
    s.windowByte_beyond p⟩⟩
  · have shown : s.windowByte p 0x37 = flagByte (decide (p = s.supervisor)) := rfl
    simp only [shown, flagByte, decide_eq_true_eq]
  · obtain ⟨low, high⟩ := s.windowByte_subject p (lowByte (handleWord h)) (highByte (handleWord h)) (by rw [hs]; rfl)
    rw [low, high]
    exact lowByte_add_highByte _ (handleWord_lt h)

end Sys2Proof.Machine

namespace Sys2Proof.Machine

/-! # The retirement of a port's records -/

/-- The withdrawal of a drawing reservation reads the ports, the tenure and G in force alone (R108, R110). -/
theorem State.withdrawDrawing_congr {s u : State} (hp : u.ports = s.ports) (ht : u.tenure = s.tenure)
    (hc : u.config = s.config) (h : Handle) (cls : ResClass) :
    (u.withdrawDrawing h cls).ports = (s.withdrawDrawing h cls).ports ∧
      (u.withdrawDrawing h cls).tenure = (s.withdrawDrawing h cls).tenure := by
  by_cases drawn : s.tenure.bind (·.drawing) = some h
  · obtain ⟨t, hs, hd⟩ := Option.bind_eq_some_iff.1 drawn
    have hu : u.tenure = some t := ht.trans hs
    cases cls with
    | elastic =>
      rw [s.withdrawDrawing_elastic t h hs hd, u.withdrawDrawing_elastic t h hu hd]
      exact ⟨hp, rfl⟩
    | fixed =>
      rw [s.withdrawDrawing_fixed t h hs hd, u.withdrawDrawing_fixed t h hu hd]
      have may : (u.setTenure (some t.undrawn)).mayYield t.undrawn =
          (s.setTenure (some t.undrawn)).mayYield t.undrawn := by
        simp only [State.mayYield, State.port, State.setTenure, hp] <;> rfl
      cases asked : (s.setTenure (some t.undrawn)).mayYield t.undrawn with
      | true =>
        rw [State.raiseYield_of_mayYield _ t.undrawn _ rfl asked,
          State.raiseYield_of_mayYield _ t.undrawn _ rfl (may.trans asked)]
        simp only [State.assertYield_eq, State.setTenure, State.port, hp, hc, and_self]
      | false =>
        rw [State.raiseYield_of_not_mayYield _ t.undrawn _ rfl asked,
          State.raiseYield_of_not_mayYield _ t.undrawn _ rfl (may.trans asked)]
        exact ⟨hp, rfl⟩
  · rw [(s.drawing_other h cls drawn).1, (u.drawing_other h cls (ht ▸ drawn)).1]
    exact ⟨hp, ht⟩

/-- A tenure that drew on a handle draws on none once it is withdrawn (R108). -/
theorem State.withdrawDrawing_drawing (s : State) (h : Handle) (cls : ResClass)
    (hd : s.tenure.bind (·.drawing) = some h) : (s.withdrawDrawing h cls).tenure.bind (·.drawing) = none := by
  obtain ⟨t, ht, hd⟩ := Option.bind_eq_some_iff.1 hd
  have view := congrArg Use.tenant (s.use_withdrawDrawing h cls)
  simp only [State.use, Use.withdraw, ht, hd, Option.map_some, if_true, Option.map_eq_some_iff, Prod.mk.injEq] at view
  obtain ⟨t', ht', -, hd'⟩ := view
  rw [ht', Option.bind_some, hd']

/-- A slot's record once the port's records are retired (R25). -/
def TableRecord.retiredOf (p : Port) (x : TableRecord) : TableRecord :=
  if x.live.any fun r => decide (r.owner = p) then { generation := x.generation + 1, live := none } else x

/-- The reservation a handle names, if it is the port's and stands in one of these slots. -/
def State.ownedIn (s : State) (p : Port) (l : List Slot) (h : Handle) : Option Reservation :=
  (s.fresh h).filter fun r => decide (r.owner = p ∧ h.slot ∈ l)

theorem State.ownedIn_eq_some (s : State) (p : Port) (l : List Slot) (h : Handle) (r : Reservation) :
    s.ownedIn p l h = some r ↔ s.fresh h = some r ∧ r.owner = p ∧ h.slot ∈ l := by
  simp [State.ownedIn, Option.filter_eq_some_iff]

/-- A waiting entry once the port's records in these slots are retired (R26). -/
def State.entryLeft (s : State) (p : Port) (l : List Slot) (e : WaitingEntry) : WaitingEntry :=
  if (e.handle.bind (s.ownedIn p l)).isSome then { handle := none } else e

/-- The state with the tenure told, if it draws on a record of the port in these slots (R108). -/
def State.withdrawnIn (s : State) (p : Port) (l : List Slot) : State :=
  match s.tenure.bind (·.drawing) with
  | none => s
  | some h =>
    match s.ownedIn p l h with
    | none => s
    | some r => s.withdrawDrawing h r.cls

/-- What a slot holds of a total, by the measure of a live record. -/
def State.held (s : State) (f : Reservation → Nat) (k : Slot) : Nat := (s.liveAt k).elim 0 f

theorem State.liveSum_held (s : State) (f : Reservation → Nat) : s.liveSum f = (allSlots.map (s.held f)).sum := by
  refine congrArg List.sum (List.map_congr_left fun k _ => ?_)
  unfold State.held
  cases s.liveAt k <;> rfl

/-- A record's contribution to the committed total, if it is the port's. -/
def claimBy (p : Port) (r : Reservation) : Nat := if r.owner = p then r.contribution else 0

/-- A record's contribution to the preempt total, if it is the port's. -/
def preemptBy (p : Port) (r : Reservation) : Nat := if r.owner = p ∧ r.preempt = true then r.contribution else 0

/-- The port's records in these slots are retired, and the rest is as it was (R25, R26, R41, R108). -/
structure State.Retired (s : State) (p : Port) (l : List Slot) (u : State) : Prop where
  record : ∀ k, u.record k = if k ∈ l then (s.record k).retiredOf p else s.record k
  waiting : ∀ q, bankGet u.waiting q = (bankGet s.waiting q).map (s.entryLeft p l)
  committed : u.committed = s.committed - (l.map (s.held (claimBy p))).sum
  preemptTotal : u.preemptTotal = s.preemptTotal - (l.map (s.held (preemptBy p))).sum
  bindings : ∀ q, q ≠ p → bankGet u.bindings q = bankGet s.bindings q
  ports : u.ports = (s.withdrawnIn p l).ports
  tenure : u.tenure = (s.withdrawnIn p l).tenure
  config : u.config = s.config

section
variable {s u : State} {p : Port} {l : List Slot}

theorem State.ownedIn_nil (s : State) (p : Port) (h : Handle) : s.ownedIn p [] h = none := by
  simp [State.ownedIn]

theorem State.Retired.nil (s : State) (p : Port) : s.Retired p [] s where
  record k := by simp
  waiting q := by
    have same : s.entryLeft p [] = id := by
      funext e
      cases h : e.handle <;> simp [State.entryLeft, State.ownedIn_nil, h]
    rw [same, Option.map_id, id]
  committed := rfl
  preemptTotal := rfl
  bindings _ _ := rfl
  ports := by unfold State.withdrawnIn; split <;> simp [State.ownedIn_nil]
  tenure := by unfold State.withdrawnIn; split <;> simp [State.ownedIn_nil]
  config := rfl

/-- One more slot that holds no record of the port. -/
theorem State.Retired.skip (h : s.Retired p l u) (k : Slot) (hk : ∀ r, s.liveAt k = some r → r.owner ≠ p) :
    s.Retired p (l ++ [k]) u := by
  have owned : s.ownedIn p (l ++ [k]) = s.ownedIn p l := by
    funext g
    refine Option.ext fun r => ?_
    rw [s.ownedIn_eq_some, s.ownedIn_eq_some]
    refine and_congr_right fun hf => and_congr_right fun ho => ?_
    have other : g.slot ≠ k := fun e => hk r (e ▸ (s.liveAt_of_fresh g r hf).2) ho
    simp [other]
  have none (f : Reservation → Nat) (hf : ∀ r, r.owner ≠ p → f r = 0) : s.held f k = 0 := by
    unfold State.held
    cases live : s.liveAt k with
    | none => rfl
    | some r => exact hf r (hk r live)
  have kept : (s.record k).retiredOf p = s.record k := by
    refine if_neg fun own => ?_
    obtain ⟨r, live, ho⟩ := (Option.any_eq_true _ _).1 own
    exact hk r live (of_decide_eq_true ho)
  constructor
  · intro j
    by_cases hj : j = k
    · subst hj
      simp [h.record, kept]
    · simp [h.record, hj]
  · intro q
    rw [h.waiting]
    unfold State.entryLeft
    rw [owned]
  · simp [h.committed, none (claimBy p) fun r hr => if_neg hr]
  · simp [h.preemptTotal, none (preemptBy p) fun r hr => if_neg fun own => hr own.1]
  · exact h.bindings
  · rw [h.ports, State.withdrawnIn, State.withdrawnIn, owned]
  · rw [h.tenure, State.withdrawnIn, State.withdrawnIn, owned]
  · exact h.config

/-- One more slot makes one more handle of the port's. -/
theorem State.ownedIn_append (s : State) (l : List Slot) (k : Slot) (r : Reservation) (hk : s.liveAt k = some r)
    (g : Handle) : s.ownedIn r.owner (l ++ [k]) g = if g = s.handleAt k then some r else s.ownedIn r.owner l g := by
  split
  · rename_i own
    subst own
    exact (s.ownedIn_eq_some _ _ _ r).2 ⟨(s.fresh_handleAt k).trans hk, rfl, by simp [State.handleAt]⟩
  · rename_i other
    refine Option.ext fun x => ?_
    rw [s.ownedIn_eq_some, s.ownedIn_eq_some]
    refine and_congr_right fun hf => and_congr_right fun _ => ?_
    have slot : g.slot ≠ k := fun e => other (e ▸ (s.liveAt_of_fresh g x hf).1)
    simp [slot]

theorem State.ownedIn_unvisited (s : State) (p : Port) (l : List Slot) (k : Slot) (hl : k ∉ l) :
    s.ownedIn p l (s.handleAt k) = none := by
  refine Option.eq_none_iff_forall_ne_some.2 fun r hr => hl ?_
  exact ((s.ownedIn_eq_some _ _ _ r).1 hr).2.2

/-- An entry that lost the handle of a visited slot, or keeps its handle, loses the handle of one more (R26). -/
theorem State.entryLeft_append (s : State) (l : List Slot) (k : Slot) (r : Reservation) (hk : s.liveAt k = some r)
    (hl : k ∉ l) (e : WaitingEntry) : s.entryLeft r.owner (l ++ [k]) e =
      if (s.entryLeft r.owner l e).handle = some (s.handleAt k) then { handle := none } else s.entryLeft r.owner l e := by
  cases he : e.handle with
  | none => simp [State.entryLeft, he]
  | some g =>
    by_cases own : g = s.handleAt k
    · simp [State.entryLeft, he, s.ownedIn_append l k r hk, own, s.ownedIn_unvisited _ l k hl]
    · simp only [State.entryLeft, he, Option.bind_some, s.ownedIn_append l k r hk, if_neg own]
      split
      · simp
      · simp [he, own]

/-- The tenure told of the visited slots and then of one more (R108). -/
theorem State.withdrawnIn_append (s : State) (l : List Slot) (k : Slot) (r : Reservation) (hk : s.liveAt k = some r)
    (hl : k ∉ l) :
    s.withdrawnIn r.owner (l ++ [k]) = (s.withdrawnIn r.owner l).withdrawDrawing (s.handleAt k) r.cls := by
  unfold State.withdrawnIn
  cases hd : s.tenure.bind (·.drawing) with
  | none => exact (s.drawing_other _ _ (by simp [hd])).1.symm
  | some g =>
    simp only [s.ownedIn_append l k r hk]
    by_cases own : g = s.handleAt k
    · simp [own, s.ownedIn_unvisited _ l k hl]
    · rw [if_neg own]
      cases s.ownedIn r.owner l g with
      | none => exact (s.drawing_other _ _ (by simp [hd, own])).1.symm
      | some x => exact (State.drawing_other _ _ _ (by simp [s.withdrawDrawing_drawing g x.cls hd])).1.symm

theorem State.withdrawnIn_config (s : State) (p : Port) (l : List Slot) : (s.withdrawnIn p l).config = s.config := by
  unfold State.withdrawnIn
  split
  · rfl
  · rename_i h _
    split
    · rfl
    · rename_i r _
      obtain ⟨a, b, e⟩ := s.withdrawDrawing_frame h r.cls
      rw [e]

/-- One more slot whose record is the port's, retired. -/
theorem State.Retired.retire {r : Reservation} (h : s.Retired r.owner l u) (k : Slot) (hl : k ∉ l)
    (hk : s.liveAt k = some r) : s.Retired r.owner (l ++ [k]) (u.retireRecord k) := by
  have record : u.record k = s.record k := by rw [h.record, if_neg hl]
  have live : u.liveAt k = some r := by rw [State.liveAt, record]; exact hk
  have handle : u.handleAt k = s.handleAt k := by rw [State.handleAt, record]; rfl
  obtain ⟨table, committed, preemptTotal, bindings, waiting⟩ := u.retireRecord_live k r live
  have told := State.withdrawDrawing_congr (s := s.withdrawnIn r.owner l)
    (u :=
      { u with
        table := bankSet u.table k { generation := (u.record k).generation + 1, live := none }
        committed := u.committed - r.contribution
        preemptTotal := u.preemptTotal - preemptPart r r.contribution
        bindings := bankSet u.bindings r.owner (bankMap (fun _ => dropBinding (u.handleAt k)) (bankGet u.bindings r.owner))
        waiting := bankMap (fun _ => dropWaiting (u.handleAt k)) u.waiting })
    h.ports h.tenure (h.config.trans (s.withdrawnIn_config _ l).symm) (s.handleAt k) r.cls
  rw [← s.withdrawnIn_append l k r hk hl, ← handle, ← u.retireRecord_of_live k r live] at told
  constructor
  · intro j
    rw [State.record, table, bankGet_bankSet]
    by_cases hj : j = k
    · subst hj
      have own : (s.record j).live = some r := hk
      simp [TableRecord.retiredOf, own, record]
    · rw [if_neg hj]
      refine (h.record j).trans ?_
      simp [hj]
  · intro q
    rw [waiting, bankGet_bankMap, h.waiting, dropWaiting_eq_map, handle, Option.map_map]
    refine congrFun (congrArg _ (funext fun e => ?_)) _
    exact (s.entryLeft_append l k r hk hl e).symm
  · simp [committed, h.committed, State.held, hk, claimBy, Nat.sub_sub]
  · simp [preemptTotal, h.preemptTotal, State.held, hk, preemptBy, preemptPart, Nat.sub_sub]
  · intro q hq
    rw [bindings, bankGet_bankSet_ne _ hq, h.bindings q hq]
  · exact told.1
  · exact told.2
  · obtain ⟨a, b, c, d, e, f, g, eq⟩ := u.retireRecord_frame k
    rw [eq]
    exact h.config

end

/-- Every live record of a port retired in ascending slot order (R29). -/
theorem State.retireOwned_retired (s : State) (p : Port) : s.Retired p allSlots (s.retireOwned p) := by
  have visited : ∀ l : List Slot, l.Nodup → s.Retired p l
      (l.foldl (fun s k => if (s.liveAt k).any fun r => decide (r.owner = p) then s.retireRecord k else s) s) := by
    intro l
    induction l using List.reverseRecOn with
    | nil => exact fun _ => .nil s p
    | append_singleton l k ih =>
      intro distinct
      obtain ⟨hl, -, apart⟩ := List.nodup_append.1 distinct
      have hk : k ∉ l := fun hm => apart k hm k (List.mem_singleton_self k) rfl
      have before := ih hl
      rw [List.foldl_append, List.foldl_cons, List.foldl_nil]
      generalize l.foldl (fun s k => if (s.liveAt k).any fun r => decide (r.owner = p) then s.retireRecord k else s) s =
        u at before
      have live : u.liveAt k = s.liveAt k := by rw [State.liveAt, before.record, if_neg hk]; rfl
      rw [live]
      split
      · rename_i own
        obtain ⟨r, hr, ho⟩ := (Option.any_eq_true _ _).1 own
        obtain rfl : r.owner = p := of_decide_eq_true ho
        exact before.retire k hk hr
      · rename_i other
        exact before.skip k fun r hr ho => other (by simp [hr, ho])
  exact visited allSlots (List.nodup_finRange 32)

end Sys2Proof.Machine

namespace Sys2Proof.Machine

/-! # The detach of a port -/

/-- The state when the records of a leaving port are retired: its tenure ended, its entry removed, the port DETACHED
(R120, R129). -/
def State.leaving (s : State) (p : Port) : State :=
  { s with
    ports := bankSet s.ports p { s.port p with state := .detached }
    waiting := bankSet s.waiting p none
    tenure := if s.holder = some p then none else s.tenure
    pendingOrder := if s.holder = some p then s.pendingOrder.map fun _ => .stray else s.pendingOrder }

/-- The state a detach leaves for the test of R106. -/
def State.departed (s : State) (p : Port) : State :=
  ((((s.leaving p).retireOwned p).unbindAll p).detachCommands p).detachNotices p

theorem mem_allSlots (k : Slot) : k ∈ allSlots := List.mem_finRange k

section
variable (s : State) (p : Port)

theorem State.detachStart_eq : ((s.detachTenure p).setWaiting p none).setPortState p .detached = s.leaving p := by
  unfold State.detachTenure State.leaving State.holder
  cases ht : s.tenure with
  | none => simp [State.setWaiting, State.setPortState, State.setPort, State.port, ht]
  | some t =>
    by_cases hp : t.holder = p
    · simp [State.setWaiting, State.setPortState, State.setPort, State.endTenure, State.port, hp]
    · simp [State.setWaiting, State.setPortState, State.setPort, State.port, ht, hp]

theorem State.detachPort_eq : s.detachPort p = (s.departed p).testYield := by
  rw [State.detachPort, s.detachStart_eq]
  rfl

theorem State.detachNotices_frame :
    ∃ n, s.detachNotices p = { s with notices := n, latches := bankSet s.latches p Latch.initial } := by
  simp only [State.detachNotices]
  split
  · exact ⟨_, rfl⟩
  · obtain ⟨n, e⟩ := State.place_frame ((s.setNotices p NoticeSet.initial).setLatch p Latch.initial) s.supervisor
      .portDetached (.port p)
    exact ⟨n, e⟩

theorem State.detachNotices_own : bankGet (s.detachNotices p).notices p = NoticeSet.initial := by
  simp only [State.detachNotices]
  split
  · exact bankGet_bankSet_self ..
  · rename_i other
    rw [State.place_notices, if_neg fun own => other own.1]
    exact bankGet_bankSet_self ..

/-- A detach is told to the supervisor, unless it is the port's own or the supervisor is not attached (R131). -/
theorem State.detachNotices_other (q : Port) (hq : q ≠ p) :
    bankGet (s.detachNotices p).notices q = if q = s.supervisor ∧ (s.port q).state ≠ .detached then
      (bankGet s.notices q).insert .portDetached (.port p) else bankGet s.notices q := by
  have emptied : bankGet (bankSet s.notices p NoticeSet.initial) q = bankGet s.notices q := bankGet_bankSet_ne _ hq _
  simp only [State.detachNotices]
  split
  · rename_i own
    rw [if_neg fun h => hq (h.1.trans own.symm)]
    exact emptied
  · rw [State.place_notices]
    by_cases sup : q = s.supervisor
    · subst sup
      simp only [true_and]
      exact if_congr Iff.rfl (congrArg (NoticeSet.insert · _ _) emptied) emptied
    · rw [if_neg fun h => sup h.1, if_neg fun h => sup h.1]
      exact emptied

/-- What the unbinding, the Command Unit and the Notice Unit change at a detach (R76, R130, R131). -/
theorem State.leaveUnits_eq : ∃ n, ((s.unbindAll p).detachCommands p).detachNotices p = { s with
    bindings := bankSet s.bindings p (Vector.replicate 4 none)
    slots := bankSet s.slots p CommandSlot.initial
    cmdQueue := s.cmdQueue.filter fun q => decide (q ≠ p)
    walk := (s.detachCommands p).walk
    notices := n
    latches := bankSet s.latches p Latch.initial } :=
  State.detachNotices_frame ((s.unbindAll p).detachCommands p) p

/-- The records of the leaving port are retired. -/
theorem State.departed_retired : (s.leaving p).Retired p allSlots (s.departed p) := by
  have retired := (s.leaving p).retireOwned_retired p
  unfold State.departed
  generalize (s.leaving p).retireOwned p = u at retired ⊢
  obtain ⟨n, e⟩ := u.leaveUnits_eq p
  rw [e]
  exact { retired with
    bindings := fun q hq => (bankGet_bankSet_ne _ hq _).trans (retired.bindings q hq) }

theorem State.departed_frame : ∃ a b c d e f g n, s.departed p = { s with
    table := a, committed := b, preemptTotal := c, bindings := d, waiting := e, ports := f, tenure := g
    pendingOrder := (s.leaving p).pendingOrder
    slots := bankSet s.slots p CommandSlot.initial
    cmdQueue := s.cmdQueue.filter fun q => decide (q ≠ p)
    walk := (s.detachCommands p).walk
    notices := n
    latches := bankSet s.latches p Latch.initial } := by
  obtain ⟨a, b, c, d, e, f, g, owned⟩ := (s.leaving p).retireOwned_frame p
  obtain ⟨n, left⟩ := ((s.leaving p).retireOwned p).leaveUnits_eq p
  refine ⟨a, b, c, bankSet d p (Vector.replicate 4 none), e, f, g, n, left.trans ?_⟩
  rw [owned]
  rfl

/-! ## Notices, bindings and records -/

theorem State.departed_notices_own : bankGet (s.departed p).notices p = NoticeSet.initial := State.detachNotices_own _ p

/-- The retirement of a port's records attaches and detaches no port. -/
theorem State.leaving_attached (q : Port) (hq : q ≠ p) :
    (((s.leaving p).retireOwned p).port q).state ≠ .detached ↔ (s.port q).state ≠ .detached := by
  have board : (((s.leaving p).retireOwned p).board none).attached = ((s.leaving p).board none).attached :=
    congrArg Board.attached ((s.leaving p).board_retireOwned p)
  have port : (s.leaving p).port q = s.port q := bankGet_bankSet_ne _ hq _
  rw [← State.use_attached, ← port, ← State.use_attached]
  exact Eq.congr_left (congrArg (bankGet · q) board)

theorem State.departed_notices_other (q : Port) (hq : q ≠ p) :
    bankGet (s.departed p).notices q = if q = s.supervisor ∧ (s.port q).state ≠ .detached then
      (bankGet s.notices q).insert .portDetached (.port p) else bankGet s.notices q := by
  have attached := s.leaving_attached p q hq
  have notices : ((s.leaving p).retireOwned p).notices = s.notices := by
    obtain ⟨a, b, c, d, e, f, g, owned⟩ := (s.leaving p).retireOwned_frame p; rw [owned]; rfl
  have supervisor : ((s.leaving p).retireOwned p).supervisor = s.supervisor := by
    obtain ⟨a, b, c, d, e, f, g, owned⟩ := (s.leaving p).retireOwned_frame p; rw [owned]; rfl
  unfold State.departed
  generalize (s.leaving p).retireOwned p = u at attached notices supervisor ⊢
  rw [State.detachNotices_other _ p q hq, ← notices, ← supervisor]
  exact if_congr (and_congr_right fun _ => attached) rfl rfl

theorem State.departed_unbound (c : SelCode) : (s.departed p).binding p c = none := by
  obtain ⟨n, e⟩ := ((s.leaving p).retireOwned p).leaveUnits_eq p
  rw [State.departed, e, State.binding, bankGet_bankSet_self]
  exact bankGet_replicate _ c

theorem State.departed_binding (q : Port) (c : SelCode) (hq : q ≠ p) : (s.departed p).binding q c = s.binding q c :=
  congrArg (bankGet · c) ((s.departed_retired p).bindings q hq)

theorem State.departed_record_own (k : Slot) (r : Reservation) (hk : s.liveAt k = some r) (hr : r.owner = p) :
    (s.departed p).record k = { generation := (s.record k).generation + 1, live := none } := by
  have live : (s.record k).live = some r := hk
  have own : ((s.record k).live.any fun x => decide (x.owner = p)) = true := by simp [live, hr]
  rw [(s.departed_retired p).record, if_pos (mem_allSlots k)]
  exact if_pos own

theorem State.departed_record_other (k : Slot) (hk : ∀ r, s.liveAt k = some r → r.owner ≠ p) :
    (s.departed p).record k = s.record k := by
  rw [(s.departed_retired p).record, if_pos (mem_allSlots k)]
  refine if_neg fun own => ?_
  obtain ⟨r, live, hr⟩ := (Option.any_eq_true _ _).1 own
  exact hk r live (of_decide_eq_true hr)

/-- A total gives up what the port's records hold of it, as far as it goes. -/
theorem State.departed_committed :
    (s.departed p).committed + s.liveSum (claimBy p) = max s.committed (s.liveSum (claimBy p)) := by
  rw [(s.departed_retired p).committed, s.liveSum_held]
  exact Nat.sub_add_eq_max ..

theorem State.departed_preemptTotal :
    (s.departed p).preemptTotal + s.liveSum (preemptBy p) = max s.preemptTotal (s.liveSum (preemptBy p)) := by
  rw [(s.departed_retired p).preemptTotal, s.liveSum_held]
  exact Nat.sub_add_eq_max ..

/-! ## The waiting set and the tenure -/

theorem State.ownedIn_allSlots (h : Handle) :
    s.ownedIn p allSlots h = (s.fresh h).filter fun r => decide (r.owner = p) := by
  simp [State.ownedIn, allSlots]

theorem State.departed_waiting_own : bankGet (s.departed p).waiting p = none := by
  rw [(s.departed_retired p).waiting]
  exact congrArg _ (bankGet_bankSet_self ..)

theorem State.departed_waiting_other (q : Port) (hq : q ≠ p) :
    bankGet (s.departed p).waiting q = (bankGet s.waiting q).map fun e =>
      if (e.handle.bind s.fresh).any (fun r => decide (r.owner = p)) then { handle := none } else e := by
  have entry : bankGet (s.leaving p).waiting q = bankGet s.waiting q := bankGet_bankSet_ne _ hq _
  rw [(s.departed_retired p).waiting, entry]
  refine congrFun (congrArg _ (funext fun e => ?_)) _
  unfold State.entryLeft
  refine if_congr ?_ rfl rfl
  cases e.handle with
  | none => rfl
  | some h =>
    rw [Option.bind_some, Option.bind_some, State.ownedIn_allSlots, Option.isSome_filter]
    rfl

/-- The end of the tenure with the detach of its holder (R120). -/
theorem State.departed_of_holder (hp : s.holder = some p) :
    (s.departed p).tenure = none ∧ (s.departed p).ports = (s.leaving p).ports := by
  have ended : (s.leaving p).tenure = none := if_pos hp
  have kept : (s.leaving p).withdrawnIn p allSlots = s.leaving p := by
    rw [State.withdrawnIn, ended, Option.bind_none]
  rw [(s.departed_retired p).tenure, (s.departed_retired p).ports, kept]
  exact ⟨ended, rfl⟩

/-- The tenure of another port that draws on one of the port's records loses it (R108). -/
theorem State.departed_of_drawn (hp : s.holder ≠ some p) (h : Handle) (r : Reservation)
    (hd : s.tenure.bind (·.drawing) = some h) (hf : s.fresh h = some r) (ho : r.owner = p) :
    (s.departed p).tenure = ((s.leaving p).withdrawDrawing h r.cls).tenure ∧
      (s.departed p).ports = ((s.leaving p).withdrawDrawing h r.cls).ports := by
  have tenure : (s.leaving p).tenure = s.tenure := if_neg hp
  have owned : (s.leaving p).ownedIn p allSlots h = some r :=
    ((s.leaving p).ownedIn_eq_some p allSlots h r).2 ⟨hf, ho, mem_allSlots _⟩
  have told : (s.leaving p).withdrawnIn p allSlots = (s.leaving p).withdrawDrawing h r.cls := by
    simp only [State.withdrawnIn, tenure, hd, owned]
  rw [(s.departed_retired p).tenure, (s.departed_retired p).ports, told]
  exact ⟨rfl, rfl⟩

/-- The tenure of another port that draws on none of the port's records stays. -/
theorem State.departed_of_undrawn (hp : s.holder ≠ some p)
    (other : ∀ h r, s.tenure.bind (·.drawing) = some h → s.fresh h = some r → r.owner ≠ p) :
    (s.departed p).tenure = s.tenure ∧ (s.departed p).ports = (s.leaving p).ports := by
  have tenure : (s.leaving p).tenure = s.tenure := if_neg hp
  have kept : (s.leaving p).withdrawnIn p allSlots = s.leaving p := by
    simp only [State.withdrawnIn, tenure]
    cases hd : s.tenure.bind (·.drawing) with
    | none => rfl
    | some h =>
      have unowned : (s.leaving p).ownedIn p allSlots h = none :=
        Option.eq_none_iff_forall_ne_some.2 fun r hr =>
          have named := ((s.leaving p).ownedIn_eq_some p allSlots h r).1 hr
          other h r hd named.1 named.2.1
      simp only [unowned]
  rw [(s.departed_retired p).tenure, (s.departed_retired p).ports, kept]
  exact ⟨tenure, rfl⟩

/-! ## The yield test -/

/-- A handle of another port's record names the same record after the detach (R26). -/
theorem State.departed_fresh (h : Handle) (r : Reservation) (hf : s.fresh h = some r) (ho : r.owner ≠ p) :
    (s.departed p).fresh h = s.fresh h := by
  have kept : (s.departed p).record h.slot = s.record h.slot := by
    refine s.departed_record_other p h.slot fun x hx => ?_
    rw [(s.liveAt_of_fresh h r hf).2] at hx
    exact Option.some.inj hx ▸ ho
  unfold State.fresh State.liveAt
  rw [kept]

/-- Where entries name records of their own ports, a detach ends the competition of the port and of no other. -/
theorem State.departed_competitorTier (hs : s.handlesSound) (q : Port) :
    (s.departed p).competitorTier q = if q = p then none else s.competitorTier q := by
  split
  · rename_i own
    rw [own, State.competitorTier, State.portRank, s.departed_waiting_own p]
    rfl
  · rename_i hq
    obtain ⟨-, entries, -⟩ := hs
    simp only [State.competitorTier, State.portRank, s.departed_waiting_other p q hq]
    cases he : bankGet s.waiting q with
    | none => rfl
    | some e =>
      cases hh : e.handle with
      | none => simp [State.entryRank, hh]
      | some h =>
        obtain ⟨r, hf, ho⟩ := entries q e h he hh
        have other : r.owner ≠ p := ho ▸ hq
        have named := s.departed_fresh p h r hf other
        simp [State.entryRank, hh, hf, other, named]

end

section
variable {s u : State} {t : Tenure}

/-- No condition of R106 is met. -/
theorem State.yieldCondition_eq_none : s.yieldCondition t = none ↔
    s.preempts t.standing ≠ true ∧ ¬(s.anyCompetitor = true ∧ s.limitReached t = true) ∧
      ¬(s.anyCompetitor = true ∧ t.idleLimit ≤ t.idleTicks) := by
  refine ⟨fun h => ?_, fun ⟨hp, hl, hi⟩ => State.yieldCondition_none hp hl hi⟩
  have hp : s.preempts t.standing ≠ true := fun hp => nomatch h.symm.trans (State.yieldCondition_preempted hp)
  have hl : ¬(s.anyCompetitor = true ∧ s.limitReached t = true) := fun hl =>
    nomatch h.symm.trans (State.yieldCondition_limit hp hl)
  exact ⟨hp, hl, fun hi => nomatch h.symm.trans (State.yieldCondition_idle hp hl hi)⟩

/-- A test that meets no condition meets none when competitors have left. -/
theorem State.yieldCondition_of_fewer (h : s.yieldCondition t = none)
    (fewer : ∀ q x, u.competitorTier q = some x → s.competitorTier q = some x)
    (limit : u.limitReached t = s.limitReached t) : u.yieldCondition t = none := by
  obtain ⟨hp, hl, hi⟩ := State.yieldCondition_eq_none.1 h
  have preempts : u.preempts t.standing = true → s.preempts t.standing = true := by
    rw [u.preempts_iff, s.preempts_iff]
    exact Or.imp (And.imp_right fun ⟨q, hq⟩ => ⟨q, fewer q _ hq⟩) (And.imp_right fun ⟨q, hq⟩ => ⟨q, fewer q _ hq⟩)
  have competes : u.anyCompetitor = true → s.anyCompetitor = true := by
    rw [u.anyCompetitor_iff, s.anyCompetitor_iff]
    rintro ⟨q, hq⟩
    obtain ⟨x, hx⟩ := Option.ne_none_iff_exists'.1 hq
    exact ⟨q, by simp [fewer q x hx]⟩
  exact State.yieldCondition_none (mt preempts hp) (mt (And.imp competes (limit ▸ id)) hl)
    (mt (And.imp_left competes) hi)

/-- A test that every GRANTED holder has already passed changes nothing. -/
theorem State.yieldsAsked.testYield (h : s.yieldsAsked) : s.testYield = s := by
  rcases s.testYield_cases with ⟨t, r, ht, hm, hc, -⟩ | ⟨same, -⟩
  · exact nomatch (h t ht hm).symm.trans hc
  · exact same

/-- A detach leaves no condition of R106 unasked: competitors leave, and the records of the others stay. -/
theorem State.yieldsAsked.departed (h : s.yieldsAsked) (hs : s.handlesSound) (p : Port) :
    (s.departed p).yieldsAsked := by
  obtain ⟨-, -, drawn⟩ := id hs
  by_cases hp : s.holder = some p
  · exact State.yieldsAsked_of_no_tenure (s.departed_of_holder p hp).1
  · have apart {x : Tenure} (hx : s.tenure = some x) : x.holder ≠ p := fun e => hp (by rw [State.holder, hx, ← e]; rfl)
    obtain ⟨tenure, ports⟩ := s.departed_of_undrawn p hp fun g r hd hf => by
      obtain ⟨x, hx, hd⟩ := Option.bind_eq_some_iff.1 hd
      obtain ⟨r', hf', owner, -⟩ := drawn x g hx hd
      obtain rfl := Option.some.inj (hf'.symm.trans hf)
      exact owner ▸ apart hx
    intro t ht hm
    have ht : s.tenure = some t := tenure.symm.trans ht
    have port : (s.departed p).port t.holder = s.port t.holder := by
      rw [State.port, ports]
      exact bankGet_bankSet_ne _ (apart ht) _
    rw [State.mayYield_iff, port, ← s.mayYield_iff] at hm
    refine State.yieldCondition_of_fewer (h t ht hm) (fun q x hq => ?_) ?_
    · rw [s.departed_competitorTier p hs q] at hq
      split at hq
      · cases hq
      · exact hq
    · unfold State.limitReached
      cases hd : t.drawing with
      | none => rfl
      | some g =>
        obtain ⟨r, hf, owner, -⟩ := drawn t g ht hd
        simp only [Option.bind_some, s.departed_fresh p g r hf (owner ▸ apart ht)]

end

/-! ## The command walk -/

section
variable (s : State) (p : Port)

theorem State.detachCommands_walk_none (hw : s.walk = none) : (s.detachCommands p).walk = none := by
  simp only [State.detachCommands, hw]

theorem State.detachCommands_walk_other (w : Walk) (hw : s.walk = some w) (hp : w.issuer ≠ p) :
    (s.detachCommands p).walk = some w := by
  simp only [State.detachCommands, hw, if_neg hp]

theorem State.detachCommands_walk_list (w : Walk) (l : Port) (st : Slot) (f : List (Handle × BitVec 16))
    (hw : s.walk = some w) (hp : w.issuer = p) (hk : w.kind = .list l st f) : (s.detachCommands p).walk = none := by
  simp only [State.detachCommands, hw, hk, if_pos hp]

theorem State.detachCommands_walk_resetTable (w : Walk) (n : Nat) (d : Bool) (hw : s.walk = some w) (hp : w.issuer = p)
    (hk : w.kind = .resetTable n d) : (s.detachCommands p).walk = some { w with kind := .resetTable n true } := by
  simp only [State.detachCommands, hw, hk, if_pos hp]

theorem State.departed_walk : (s.departed p).walk = (s.detachCommands p).walk := by
  obtain ⟨a, b, c, d, e, f, g, n, left⟩ := s.departed_frame p
  rw [left]

theorem State.departed_walk_none (hw : s.walk = none) : (s.departed p).walk = none :=
  (s.departed_walk p).trans (s.detachCommands_walk_none p hw)

theorem State.departed_walk_other (w : Walk) (hw : s.walk = some w) (hp : w.issuer ≠ p) :
    (s.departed p).walk = some w := (s.departed_walk p).trans (s.detachCommands_walk_other p w hw hp)

theorem State.departed_walk_list (w : Walk) (l : Port) (st : Slot) (f : List (Handle × BitVec 16))
    (hw : s.walk = some w) (hp : w.issuer = p) (hk : w.kind = .list l st f) : (s.departed p).walk = none :=
  (s.departed_walk p).trans (s.detachCommands_walk_list p w l st f hw hp hk)

theorem State.departed_walk_resetTable (w : Walk) (n : Nat) (d : Bool) (hw : s.walk = some w) (hp : w.issuer = p)
    (hk : w.kind = .resetTable n d) : (s.departed p).walk = some { w with kind := .resetTable n true } :=
  (s.departed_walk p).trans (s.detachCommands_walk_resetTable p w n d hw hp hk)

/-! ## The slot, the queue, the latch and the rest -/

theorem State.departed_slot (q : Port) :
    (s.departed p).slot q = if q = p then CommandSlot.initial else s.slot q := by
  obtain ⟨a, b, c, d, e, f, g, n, left⟩ := s.departed_frame p
  rw [left]
  exact bankGet_bankSet ..

theorem State.departed_latch (q : Port) :
    bankGet (s.departed p).latches q = if q = p then Latch.initial else bankGet s.latches q := by
  obtain ⟨a, b, c, d, e, f, g, n, left⟩ := s.departed_frame p
  rw [left]
  exact bankGet_bankSet ..

theorem State.departed_cmdQueue : (s.departed p).cmdQueue = s.cmdQueue.filter fun q => decide (q ≠ p) := by
  obtain ⟨a, b, c, d, e, f, g, n, left⟩ := s.departed_frame p
  rw [left]

theorem State.departed_pendingOrder : (s.departed p).pendingOrder =
    if s.holder = some p then s.pendingOrder.map fun _ => .stray else s.pendingOrder := by
  obtain ⟨a, b, c, d, e, f, g, n, left⟩ := s.departed_frame p
  rw [left]
  rfl

/-- What a detach leaves as it was. -/
theorem State.departed_unchanged : s.departed p = { s with
    ports := (s.departed p).ports, table := (s.departed p).table, bindings := (s.departed p).bindings
    committed := (s.departed p).committed, preemptTotal := (s.departed p).preemptTotal
    waiting := (s.departed p).waiting, tenure := (s.departed p).tenure
    pendingOrder := (s.departed p).pendingOrder, slots := (s.departed p).slots
    cmdQueue := (s.departed p).cmdQueue, walk := (s.departed p).walk
    notices := (s.departed p).notices, latches := (s.departed p).latches } := by
  obtain ⟨a, b, c, d, e, f, g, n, left⟩ := s.departed_frame p
  rw [left]

end

/-! ## The event -/

/-- The state with PRESn of a port low (R129). -/
def State.unplugged (s : State) (p : Port) : State := { s with pres := bankSet s.pres p false }

theorem exec_detach (p : Port) (s : State) : exec (.detach p) s =
    if s.rstLow then .next (s.unplugged p)
    else if (s.port p).state = .detached then .next (s.unplugged p)
    else .next ((s.unplugged p).detachPort p) := rfl

/-- With RST# low, or on a DETACHED port, a detach is the fall of PRESn alone (R129). -/
theorem exec_detach_level (p : Port) (s : State) (h : s.rstLow = true ∨ (s.port p).state = .detached) :
    exec (.detach p) s = .next (s.unplugged p) := by
  rw [exec_detach]
  split
  · rfl
  · rename_i high
    exact if_pos (h.resolve_left high)

theorem exec_detach_attached (p : Port) (s : State) (hr : s.rstLow = false) (ha : (s.port p).state ≠ .detached) :
    exec (.detach p) s = .next ((s.unplugged p).departed p).testYield := by
  rw [exec_detach, if_neg (by simp [hr]), if_neg ha, State.detachPort_eq]

/-- Settles O5: a detach is `State.departed` and then the test of R106, and each clause is a lemma about the former. -/
theorem detachRemovesEveryTrace : Obligations.DetachRemovesEveryTrace := by
  refine fun p s => ⟨exec_detach_level p s, fun hr ha => ⟨_, _, exec_detach_attached p s hr ha, rfl, fun hp => ?_,
    fun hp => ⟨?_, fun h r hd hf ho => ?_, (s.unplugged p).departed_of_undrawn p hp⟩, fun hs hy => ?_,
    (s.unplugged p).departed_waiting_own p, (s.unplugged p).departed_waiting_other p,
    (s.unplugged p).departed_record_own p, (s.unplugged p).departed_record_other p,
    (s.unplugged p).departed_committed p, (s.unplugged p).departed_preemptTotal p,
    (s.unplugged p).departed_unbound p, (s.unplugged p).departed_binding p,
    ((s.unplugged p).departed_slot p p).trans (if_pos rfl),
    fun q hq => ((s.unplugged p).departed_slot p q).trans (if_neg hq), (s.unplugged p).departed_cmdQueue p,
    (s.unplugged p).departed_walk_none p, (s.unplugged p).departed_walk_other p, (s.unplugged p).departed_walk_list p,
    (s.unplugged p).departed_walk_resetTable p, (s.unplugged p).departed_notices_own p,
    ((s.unplugged p).departed_latch p p).trans (if_pos rfl),
    fun q hq => ((s.unplugged p).departed_latch p q).trans (if_neg hq), (s.unplugged p).departed_notices_other p,
    (s.unplugged p).departed_unchanged p⟩⟩
  · obtain ⟨tenure, ports⟩ := (s.unplugged p).departed_of_holder p hp
    exact ⟨tenure, ports, ((s.unplugged p).departed_pendingOrder p).trans (if_pos hp)⟩
  · exact ((s.unplugged p).departed_pendingOrder p).trans (if_neg hp)
  · obtain ⟨tenure, ports⟩ := (s.unplugged p).departed_of_drawn p hp h r hd hf ho
    have told := State.withdrawDrawing_congr
      (s := { s with ports := bankSet s.ports p { s.port p with state := .detached } }) (u := (s.unplugged p).leaving p) rfl (if_neg hp) rfl h r.cls
    exact ⟨tenure.trans told.2, ports.trans told.1⟩
  · have asked : (s.unplugged p).yieldsAsked := hy
    exact (asked.departed hs p).testYield

end Sys2Proof.Machine

namespace Sys2Proof.Machine

/-! # The readies of the command window -/

theorem WindowAccess.writes_iff (o : Byte) (a : WindowAccess) :
    a.writes o = true ↔ ∃ p, a = { offset := o, write := true, port := p } := by
  cases a
  simp [WindowAccess.writes, and_comm]

theorem WindowAccess.reads_iff (o : Byte) (a : WindowAccess) :
    a.reads o = true ↔ ∃ p, a = { offset := o, write := false, port := p } := by
  cases a
  simp [WindowAccess.reads, and_comm]

/-- A ready named by the access it completes, and the plain ready, where both lead to the same state. -/
theorem exec_named_or_ready {s u : State} {c : Cycle} {rest : List Strobe} {a : WindowAccess} (h : s.completes c rest)
    (ha : c.access = some a) {named : Instr} {is : WindowAccess → Bool} {e d : Byte}
    (run : exec named s = .next (s.readyOf is e)) (hit : is a = true) (he : s.readyEvent e = u)
    (hd : s.readyEvent d = u) : ∀ i ∈ [named, Instr.ready d], exec i s = .next u := by
  have same : s.readyOf is e = s.readyEvent e := by
    rw [s.readyOf_completes c rest h, ha, Option.any_some, if_pos hit]
  intro i hi
  simp only [List.mem_cons, List.not_mem_nil, or_false] at hi
  obtain rfl | rfl := hi
  · rw [run, same, he]
  · exact congrArg Host.Outcome.next hd

/-! ## Writes -/

section
variable (s : State) (p : Port) (d : Byte)

/-- A write of 0 to offset 0x00 is a store as at the other offsets of the command area (R141, R143). -/
theorem State.windowStore_area (k : Fin 16) (h : k ≠ 0 ∨ d = 0) : s.windowStore p k.val d = s.storeArea p k d := by
  by_cases first : k = 0
  · have zero : d = 0 := h.resolve_left fun n => n first
    subst first zero
    rfl
  · have later : k.val ≠ 0 := fun e => first (Fin.ext e)
    rw [State.windowStore, if_neg later, dif_pos k.isLt]

theorem State.windowStore_trigger (h : d ≠ 0) : s.windowStore p 0 d = s.triggerSlot p d := by
  rw [State.windowStore, if_pos rfl, if_neg h]

theorem State.windowStore_control : s.windowStore p 0x35 d = s.writeControl p d := rfl

theorem State.windowStore_ignored (o : Nat) (high : 16 ≤ o) (h : o ≠ 0x35) : s.windowStore p o d = s := by
  rw [State.windowStore, if_neg (by omega), dif_neg (by omega), if_neg h]

theorem State.triggerSlot_accepted (h : (s.slot p).state = .idle ∨ (s.slot p).state = .done) :
    s.triggerSlot p d = s.acceptTrigger p d := by
  obtain idle | done := h
  · simp only [State.triggerSlot, idle]
  · simp only [State.triggerSlot, done]

theorem State.triggerSlot_refused (h : (s.slot p).state = .queued ∨ (s.slot p).state = .running) :
    s.triggerSlot p d = s.setSlot p { s.slot p with refused := true } := by
  obtain queued | running := h
  · simp only [State.triggerSlot, queued]
  · simp only [State.triggerSlot, running]

end

/-- The ready of a window write stores, and then charges the cycle (R140). -/
theorem State.readyEvent_write {s u : State} {c : Cycle} {rest : List Strobe} (h : s.completes c rest) {o : Byte} {p : Port}
    (ha : c.access = some { offset := o, write := true, port := p }) {d : Byte} (stored : s.windowStore p o.toNat d = u) :
    s.readyEvent d = (State.charge { u with pendingOrder := rest, driven := none } c.cost).finishDrain := by
  rw [s.readyEvent_completes c rest h, ha, ← stored]
  rfl

/-- Settles O10: the slot state accepts the trigger or refuses it. -/
theorem triggerIsAcceptedOrRefused : Obligations.TriggerIsAcceptedOrRefused := by
  intro d s c rest p hd h ha i hi
  have run (u : State) (hu : s.triggerSlot p d = u) :
      exec i s = .next (State.charge { u with pendingOrder := rest, driven := none } c.cost).finishDrain :=
    have ready := State.readyEvent_write h ha ((s.windowStore_trigger p d hd).trans hu)
    exec_named_or_ready h ha rfl (Bool.and_eq_true_iff.2 ⟨rfl, decide_eq_true hd⟩) ready ready i hi
  exact ⟨fun free => run _ (s.triggerSlot_accepted p d free), fun busy => run _ (s.triggerSlot_refused p d busy)⟩

/-- The accesses of WINDOW_WRITE: the window writes but for a trigger and the NTF enable (R128, R141, R143). -/
theorem windowWrite_iff (d : Byte) (a : WindowAccess) :
    (a.write && decide (a.offset ≠ 0x35) && (decide (a.offset ≠ 0x00) || decide (d = 0))) = true ↔
      a.write = true ∧ ¬(a.offset = 0x35 ∨ (a.offset = 0x00 ∧ d ≠ 0)) := by
  simp only [Bool.and_eq_true, Bool.or_eq_true, decide_eq_true_eq]
  tauto

/-- Settles O11: the offset says what a write reaches. -/
theorem windowWritesReachTheHoldersOwnState : Obligations.WindowWritesReachTheHoldersOwnState := by
  intro d s c rest o p h ha
  have ready (u : State) (stored : s.windowStore p o.toNat d = u) := State.readyEvent_write h ha stored
  refine ⟨fun k hk first => ?_, fun high other => ?_, fun control => ?_⟩
  · have area : s.windowStore p o.toNat d = s.storeArea p k d := by rw [hk, s.windowStore_area p d k first]
    have plain : ¬(o = 0x35 ∨ (o = 0x00 ∧ d ≠ 0)) := by
      rintro (rfl | ⟨rfl, nonzero⟩)
      · exact absurd (hk.trans_lt k.isLt) (by decide)
      · exact (first.resolve_right nonzero) (Fin.ext hk.symm)
    exact exec_named_or_ready h ha rfl ((windowWrite_iff d _).2 ⟨rfl, plain⟩) (ready _ area) (ready _ area)
  · have ignored := s.windowStore_ignored p d o.toNat high fun e => other (BitVec.eq_of_toNat_eq e)
    have plain : ¬(o = 0x35 ∨ (o = 0x00 ∧ d ≠ 0)) := by
      rintro (rfl | ⟨rfl, -⟩)
      · exact other rfl
      · exact absurd high (by decide)
    exact exec_named_or_ready h ha rfl ((windowWrite_iff d _).2 ⟨rfl, plain⟩) (ready _ ignored) (ready _ ignored)
  · subst control
    have stored := ready _ (s.windowStore_control p d)
    exact exec_named_or_ready h ha rfl rfl stored stored

/-! ## NOTICE_TAKE -/

theorem subjectRank_lt (x : Subject) : subjectRank x < 32 := by
  cases x with
  | none => exact Nat.zero_lt_succ _
  | handle h => exact h.slot.isLt
  | port p => exact Nat.lt_trans p.isLt (by decide)

/-- Entries rank by kind, and by subject among entries of one kind (R192). -/
theorem NoticeEntry.rank_lt_iff (a b : NoticeEntry) : a.rank < b.rank ↔
    kindRank a.kind < kindRank b.kind ∨
      (kindRank a.kind = kindRank b.kind ∧ subjectRank a.subject < subjectRank b.subject) := by
  have ha := subjectRank_lt a.subject
  have hb := subjectRank_lt b.subject
  unfold NoticeEntry.rank
  omega

section
variable (s : State) (p : Port)

theorem State.takeNotice_overrun (h : (bankGet s.notices p).overrun = true) : s.takeNotice p =
    (s.setNotices p { bankGet s.notices p with overrun := false }).setLatch p
      { kind := .overrun, subject := .none, count := 1 } := by
  simp only [State.takeNotice, h, if_true]

theorem State.takeNotice_empty (h : (bankGet s.notices p).overrun = false) (he : (bankGet s.notices p).entries = []) :
    s.takeNotice p = s.setLatch p { kind := .none, subject := .none, count := 0 } := by
  simp only [State.takeNotice, h, he, firstRanked, Bool.false_eq_true, if_false]

/-- The entry that ranks first leaves the set for the latch (R153, R192, R193). -/
theorem State.takeNotice_first (pre post : List NoticeEntry) (e : NoticeEntry)
    (h : (bankGet s.notices p).overrun = false) (he : (bankGet s.notices p).entries = pre ++ e :: post)
    (before : ∀ x ∈ pre, e.rank < x.rank) (after : ∀ x ∈ post, e.rank ≤ x.rank) : s.takeNotice p =
      (s.setNotices p { bankGet s.notices p with entries := pre ++ post }).setLatch p
        { kind := .notice e.kind, subject := e.subject, count := e.count } := by
  have first : firstRanked (bankGet s.notices p).entries = some e := by rw [he, firstRanked_append pre e post before after]
  have absent : e ∉ pre := fun mem => Nat.lt_irrefl _ (before e mem)
  have rest : (bankGet s.notices p).entries.erase e = pre ++ post := by
    rw [he, List.erase_append_right _ absent, List.erase_cons_head]
  simp only [State.takeNotice, h, first, rest, Bool.false_eq_true, if_false]

end

/-- The ready of a read of 0x38 drives the kind it latches (R140, R153). -/
theorem State.readyEvent_notice {s u : State} {c : Cycle} {rest : List Strobe} (h : s.completes c rest) {p : Port}
    (ha : c.access = some { offset := 0x38, write := false, port := p }) {l : Latch}
    (taken : s.takeNotice p = u.setLatch p l) (d : Byte) :
    s.readyEvent d = (State.charge
      { u.setLatch p l with pendingOrder := rest, driven := some (latchKindCode l.kind) } c.cost).finishDrain := by
  have byte : (u.setLatch p l).windowByte p 0x38 = latchKindCode l.kind :=
    congrArg (fun x : Latch => latchKindCode x.kind) (bankGet_bankSet_self u.latches p l)
  rw [s.readyEvent_completes c rest h, ha, ← byte, ← taken]
  rfl

/-- Settles O12: what the take latches is the overrun indication, the entry that ranks first, or NONE. -/
theorem noticeTakeRemovesFirstRankedItem : Obligations.NoticeTakeRemovesFirstRankedItem := by
  refine ⟨NoticeEntry.rank_lt_iff, fun _ => rfl, fun _ => rfl, rfl, fun s c rest p h ha d i hi => ?_⟩
  have run (u : State) (l : Latch) (taken : s.takeNotice p = u.setLatch p l) :
      exec i s = .next (State.charge
        { u.setLatch p l with pendingOrder := rest, driven := some (latchKindCode l.kind) } c.cost).finishDrain :=
    have ready := State.readyEvent_notice h ha taken
    exec_named_or_ready h ha rfl rfl (ready 0) (ready d) i hi
  exact ⟨fun overrun => run _ _ (s.takeNotice_overrun p overrun),
    fun clear empty => run _ _ (s.takeNotice_empty p clear empty),
    fun pre e post clear split before after => run _ _ (s.takeNotice_first p pre post e clear split before after)⟩

end Sys2Proof.Machine

namespace Sys2Proof.Machine

/-! # Completions and refusals -/

theorem bankGet_replyData (bs : List Byte) (i : Fin 30) : bankGet (replyData bs) i = bs.getD i.val 0 := by
  simp [bankGet, replyData, Vector.get_eq_getElem]

/-- Settles O31: a completion is the reply and its notice, and a refusal completes with no data. -/
theorem completionWritesReplyAndPlacesCmdDone : Obligations.CompletionWritesReplyAndPlacesCmdDone := by
  refine fun s p x n bs => ⟨rfl, ?_, bankGet_replyData bs⟩
  rw [← replyData_nil]
  rfl

/-! # The takes of the codes -/

/-- Every supervisor command is the take of its code (R174, R198). -/
theorem exec_supervisorTake :
    ∀ x ∈ supervisorTakes, ∃ body, ∀ s, exec x.1 s = .next (s.takeSupervisor x.2 body) := by
  simp only [supervisorTakes, List.forall_mem_cons]
  exact ⟨⟨openForTake, fun _ => rfl⟩, ⟨revokeTake, fun _ => rfl⟩, ⟨suspendTake, fun _ => rfl⟩,
    ⟨resumeTake, fun _ => rfl⟩, ⟨demoteTake, fun _ => rfl⟩, ⟨clearFenceTake, fun _ => rfl⟩, ⟨setFrameTake, fun _ => rfl⟩,
    ⟨resetTableTake, fun _ => rfl⟩, ⟨queryPortTake, fun _ => rfl⟩, List.forall_mem_nil _⟩

/-- Every command with a code is the take of its code (R198). -/
theorem exec_commandTake :
    ∀ x ∈ commandTakes, ∃ body, ∀ s, exec x.1 s = .next (s.take (fun b => decide (b = x.2)) body) := by
  have supervisor : ∀ x ∈ supervisorTakes, ∃ body, ∀ s,
      exec x.1 s = .next (s.take (fun b => decide (b = x.2)) body) :=
    fun x hx => (exec_supervisorTake x hx).imp' supervisorOnly fun _ run => run
  simp only [commandTakes, List.cons_append, List.nil_append, List.forall_mem_cons]
  exact ⟨⟨openTake, fun _ => rfl⟩, ⟨modifyTake, fun _ => rfl⟩, ⟨renewTake, fun _ => rfl⟩, ⟨closeTake, fun _ => rfl⟩,
    ⟨bindTake, fun _ => rfl⟩, ⟨unbindTake, fun _ => rfl⟩, ⟨queryTake, fun _ => rfl⟩, ⟨listTake, fun _ => rfl⟩, supervisor⟩

/-- A supervisor command from another port is refused (R174). -/
theorem State.takeSupervisor_foreign (s : State) (p : Port) (rest : List Port) (c : Vector Byte 16) (b : Byte)
    (h : s.takeDue p rest c b) (hp : p ≠ s.supervisor) (body : Port → Vector Byte 16 → State → State) :
    s.takeSupervisor b body = State.refuse { s with cmdQueue := rest } p .notSupervisor := by
  rw [State.takeSupervisor, s.take_due p rest c b h _ (decide_eq_true rfl)]
  exact if_neg hp

/-- Settles O33: the code alone is outside the table, or the port alone is not the supervisor. -/
theorem undefinedCodesAndForeignSupervisorCommandsAreRefused :
    Obligations.UndefinedCodesAndForeignSupervisorCommandsAreRefused := by
  refine fun s p rest c b due => ⟨fun undefined => ?_, fun foreign x hx hb => ?_⟩
  · obtain ⟨bad, -⟩ := takeOf_undefined b undefined
    rw [exec_takeBadCommand_of_due s p rest c b undefined due, s.takeFront_of_due p rest c b due, bad]
    rfl
  · subst hb
    obtain ⟨body, run⟩ := exec_supervisorTake x hx
    rw [run, s.takeSupervisor_foreign p rest c x.2 due foreign]
    rfl

/-! # The walks -/

theorem State.listedPort_supervisor (s : State) (c : Vector Byte 16) : s.listedPort s.supervisor c = portField c :=
  if_pos rfl

theorem State.listedPort_other (s : State) (p : Port) (c : Vector Byte 16) (h : p ≠ s.supervisor) :
    s.listedPort p c = some p :=
  if_neg h

/-- A start slot above 31 is refused, and so is the supervisor's port above 7 (R171). -/
theorem listTake_badField (p : Port) (c : Vector Byte 16) (s : State)
    (h : 32 ≤ field8 c 0x01 ∨ (p = s.supervisor ∧ 8 ≤ field8 c 0x0B)) : listTake p c s = s.refuse p .badField := by
  obtain high | ⟨rfl, high⟩ := h
  · simp [listTake, startField_none c high]
  · simp [listTake, s.listedPort_supervisor, portField_none c high]

theorem listTake_begins (p : Port) (c : Vector Byte 16) (s : State) (start : Slot) (listed : Port)
    (hs : startField c = some start) (hl : s.listedPort p c = some listed) :
    listTake p c s = s.beginWalk p (.list listed start []) := by
  simp only [listTake, hs, hl]

/-- Settles O44: an admitted LIST and every RESET_TABLE of the supervisor begin a walk. -/
theorem walksBeginAtSlotZero : Obligations.WalksBeginAtSlotZero := by
  intro s p rest c
  refine ⟨fun due => ?_, fun due => exec_of_takeSupervisor s rest c _ due resetTableTake⟩
  have run : exec .takeList s = .next (listTake p c { s with cmdQueue := rest }) := exec_of_take s p rest c _ due listTake
  refine ⟨fun bad => ?_, fun start listed hs own other => ?_⟩
  · rw [run, listTake_badField p c { s with cmdQueue := rest } bad]
  · have port : State.listedPort { s with cmdQueue := rest } p c = some listed := by
      by_cases hp : p = s.supervisor
      · rw [hp]
        exact (State.listedPort_supervisor _ c).trans (portField_some c listed (own hp))
      · rw [other hp]
        exact State.listedPort_other _ p c hp
    rw [run, listTake_begins p c _ start listed (startField_some c start hs) port]
    rfl

/-- A LIST visit notes the record in the slot if it is live, of the listed port, and at or above the start (R172). -/
theorem State.listNote_of_listed (s : State) (listed : Port) (start k : Slot) (r : Reservation) (hk : start ≤ k)
    (hl : s.liveAt k = some r) (ho : r.owner = listed) : s.listNote listed start k = [(s.handleAt k, r.tag)] := by
  simp [State.listNote, hk, hl, ho]

theorem State.listNote_of_unlisted (s : State) (listed : Port) (start k : Slot)
    (h : ¬(start ≤ k ∧ ∃ r, s.liveAt k = some r ∧ r.owner = listed)) : s.listNote listed start k = [] := by
  unfold State.listNote
  split
  · rename_i hk
    split
    · rfl
    · rename_i r hl
      exact if_neg fun ho => h ⟨hk, r, hl, ho⟩
  · rfl

section
variable (s : State) (w : Walk) (listed : Port) (start : Slot) (found : List (Handle × BitVec 16))

theorem State.listStep_moves (j : Slot) (h : j.val = w.next.val + 1) : s.listStep w listed start found =
    { s with
      walk := some { w with next := j, kind := .list listed start (found ++ s.listNote listed start w.next) } } := by
  simp only [State.listStep, nextSlot_some w.next j h]

theorem State.listStep_ends (h : w.next.val = 31) : s.listStep w listed start found =
    State.complete { s with walk := none } w.issuer .done (found ++ s.listNote listed start w.next).length
      (listBytes (found ++ s.listNote listed start w.next)) := by
  simp only [State.listStep, nextSlot_none w.next h]

end

/-- Settles O45: what the visit notes joins what was found, and the slot says whether the walk goes on. -/
theorem listVisitNotesTheListedPortsRecords : Obligations.ListVisitNotesTheListedPortsRecords := by
  intro s w listed start found found' hr hw hk hf
  have noted : found ++ s.listNote listed start w.next = found' := by
    obtain ⟨hs, r, hl, ho, rfl⟩ | ⟨unlisted, rfl⟩ := hf
    · rw [s.listNote_of_listed listed start w.next r hs hl ho]
      rfl
    · rw [s.listNote_of_unlisted listed start w.next unlisted, List.append_nil]
  have visit : exec .listVisit s = .next (s.listStep w listed start found) := by
    rw [(exec_visit_of_walk s w hr hw).1 listed start found hk]
    simp only [State.walkStep, hw, hk]
  refine ⟨fun j hj => ?_, fun last => ?_⟩
  · rw [visit, s.listStep_moves w listed start found j hj, noted]
  · rw [visit, s.listStep_ends w listed start found last, noted]
    rfl

/-! # Events that are not due -/

/-- A take of no code that is due changes nothing (log entry 2). -/
theorem State.take_of_not_due (s : State) (isCode : Byte → Bool) (body : Port → Vector Byte 16 → State → State)
    (h : ∀ p rest c b, s.takeDue p rest c b → isCode b = false) : s.take isCode body = s := by
  obtain still | ⟨p, rest, c, due, code, -⟩ := s.take_cases isCode body
  · exact still
  · exact absurd code (by simp [h p rest c _ due])

theorem definedCode_of_mem (b : Byte) (hb : b ∈ commandTakes.map (·.2)) : definedCode b = true := by
  revert b
  decide

theorem exec_listVisit_of_no_list (s : State) (h : ∀ w l st f, s.walk = some w → w.kind ≠ .list l st f) :
    exec .listVisit s = .next s := by
  have idle : s.listing = false := by
    cases hw : s.walk with
    | none => simp [State.listing, hw]
    | some w =>
      cases hk : w.kind with
      | list l st f => exact absurd hk (h w l st f hw)
      | resetTable n d => simp [State.listing, hw, hk]
  exact if_pos (Or.inr idle)

theorem exec_resetTableVisit_of_no_reset (s : State) (h : ∀ w n d, s.walk = some w → w.kind ≠ .resetTable n d) :
    exec .resetTableVisit s = .next s := by
  have idle : s.resetting = false := by
    cases hw : s.walk with
    | none => simp [State.resetting, hw]
    | some w =>
      cases hk : w.kind with
      | list l st f => simp [State.resetting, hw, hk]
      | resetTable n d => exact absurd hk (h w n d hw)
  exact if_pos (Or.inr idle)

/-- A named ready where the oldest cycle is another access is no event (log entry 1). -/
theorem State.readyOf_of_other (s : State) (c : Cycle) (rest : List Strobe) (ho : s.pendingOrder = .cycle c :: rest)
    (is : WindowAccess → Bool) (d : Byte) (h : ∀ a, c.access = some a → ¬is a = true) : s.readyOf is d = s := by
  have miss : ¬c.access.any is = true := fun hit => by
    obtain ⟨a, ha, his⟩ := (Option.any_eq_true ..).1 hit
    exact h a ha his
  simp only [State.readyOf, ho, if_neg miss]

/-- A named ready of a stray or of an empty order is the plain ready, and no byte is read (log entry 1). -/
theorem State.readyOf_of_no_cycle (s : State) (h : ∀ c rest, s.pendingOrder ≠ .cycle c :: rest)
    (is : WindowAccess → Bool) (d e : Byte) : s.readyOf is d = s.readyEvent e := by
  match ho : s.pendingOrder with
  | [] => simp only [State.readyOf, State.readyEvent, ho]
  | .stray :: rest => simp only [State.readyOf, State.readyEvent, ho]
  | .cycle c :: rest => exact absurd ho (h c rest)

/-- Settles O32: each event by the guard that finds it not due. -/
theorem undueEventsChangeNothing : Obligations.UndueEventsChangeNothing := by
  refine fun s => ⟨fun x hx undue => ?_, fun defined => ?_, exec_listVisit_of_no_list s,
    exec_resetTableVisit_of_no_reset s, fun c rest d ho => ?_, fun noCycle d i hi => ?_⟩
  · obtain ⟨body, run⟩ := exec_commandTake x hx
    rw [run, s.take_of_not_due _ body fun p rest c b due => decide_eq_false ?_]
    rintro rfl
    exact undue p rest c due
  · have still := s.take_of_not_due (fun b => !definedCode b) badTake fun p rest c b due => by
      rw [definedCode_of_mem b (defined p rest c b due), Bool.not_true]
    exact congrArg Host.Outcome.next still
  · have other (is : WindowAccess → Bool) (e : Byte) (h : ∀ a, c.access = some a → ¬is a = true) :
        Host.Outcome.next (s.readyOf is e) = (.next s : Result) := by
      rw [s.readyOf_of_other c rest ho is e h]
    refine ⟨fun h => other _ d fun a ha hit => ?_, fun h => other _ d fun a ha hit => ?_,
      fun h => other _ d fun a ha hit => ?_, fun h => other _ 0 fun a ha hit => ?_,
      fun h => other _ 0 fun a ha hit => ?_⟩
    · obtain ⟨write, nonzero⟩ := Bool.and_eq_true_iff.1 hit
      obtain ⟨p, rfl⟩ := (WindowAccess.writes_iff _ _).1 write
      obtain zero | elsewhere := h
      · exact of_decide_eq_true nonzero zero
      · exact elsewhere p ha
    · obtain ⟨write, plain⟩ := (windowWrite_iff d a).1 hit
      exact plain (h a.offset a.port (by rw [ha, ← write]))
    · obtain ⟨p, rfl⟩ := (WindowAccess.writes_iff _ _).1 hit
      exact h p ha
    · obtain ⟨p, rfl⟩ := (WindowAccess.reads_iff _ _).1 hit
      exact h p ha
    · obtain ⟨p, rfl⟩ := (WindowAccess.reads_iff _ _).1 hit
      exact h p ha
  · have plain (is : WindowAccess → Bool) (e : Byte) :
        Host.Outcome.next (s.readyOf is e) = (.next (s.readyEvent d) : Result) := by
      rw [s.readyOf_of_no_cycle noCycle is e d]
    simp only [List.mem_cons, List.not_mem_nil, or_false] at hi
    obtain rfl | rfl | rfl | rfl | rfl := hi
    · exact plain _ d
    · exact plain _ d
    · exact plain _ d
    · exact plain _ 0
    · exact plain _ 0

end Sys2Proof.Machine

namespace Sys2Proof.Machine

/-! # The queries -/

/-! ## QUERY -/

theorem classCode_eq (x : ResClass) : classCode x = if x = .fixed then 0x00 else 0x01 := by cases x <;> rfl

/-- The causes byte is the sum of the codes of its causes (R199). -/
theorem causesByte_eq_add (x : Causes) :
    causesByte x = (if x.command then 0x01 else 0x00) + (if x.fence then 0x02 else 0x00) := by
  obtain ⟨command, fence⟩ := x
  cases command <;> cases fence <;> rfl

/-- The reply bytes of QUERY, item by item in the order of the layout (R170, R199). -/
theorem queryBytes_eq (h : Handle) (r : Reservation) : queryBytes h r =
    handleBytes h ++
      [liveStateCode r.state, BitVec.ofNat 8 r.owner.val, if r.cls = .fixed then 0x00 else 0x01,
        if r.preempt then 0x01 else 0x00] ++
      twoBytes r.share ++ twoBytes (r.pendingShare.getD 0) ++ twoBytes r.maxTenure ++
      [BitVec.ofNat 8 r.priority.val, BitVec.ofNat 8 r.leaseLength, BitVec.ofNat 8 r.leaseRemaining] ++
      twoBytes r.credit ++
      [(if r.causes.command then 0x01 else 0x00) + (if r.causes.fence then 0x02 else 0x00),
        BitVec.ofNat 8 r.shortfall] ++ twoBytes r.tag.toNat := by
  rw [← classCode_eq, ← causesByte_eq_add]
  rfl

section
variable (p : Port) (c : Vector Byte 16) (s : State)

theorem queryTake_stale (h : s.fresh (handleField c) = none) : queryTake p c s = s.refuse p .stale := by
  simp only [queryTake, h]

theorem queryTake_notOwner (r : Reservation) (h : s.fresh (handleField c) = some r) (ho : r.owner ≠ p)
    (hs : p ≠ s.supervisor) : queryTake p c s = s.refuse p .notOwner := by
  simp only [queryTake, h, if_pos (And.intro ho hs)]

theorem queryTake_done (r : Reservation) (h : s.fresh (handleField c) = some r) (ho : r.owner = p ∨ p = s.supervisor) :
    queryTake p c s = s.complete p .done 1 (queryBytes (handleField c) r) := by
  have admitted : ¬(r.owner ≠ p ∧ p ≠ s.supervisor) := fun ⟨foreign, other⟩ => ho.elim foreign other
  simp only [queryTake, h, if_neg admitted]

/-! ## QUERY_PORT -/

theorem queryPortTake_badField (h : 8 ≤ field8 c 0x0B) : queryPortTake p c s = s.refuse p .badField := by
  simp only [queryPortTake, portField_none c h]

theorem queryPortTake_done (q : Port) (h : field8 c 0x0B = q.val) :
    queryPortTake p c s = s.complete p .done 1 (s.portBytes q) := by
  simp only [queryPortTake, portField_some c q h]

end

/-- What QUERY_PORT shows of a port does not depend on the queue that the take has left (R187). -/
theorem State.portBytes_cmdQueue (s : State) (rest : List Port) (q : Port) :
    State.portBytes { s with cmdQueue := rest } q = s.portBytes q :=
  rfl

/-- Settles O43: the checks of each query in order, then the reply with the items of its layout. -/
theorem queriesReportAndChangeNothing : Obligations.QueriesReportAndChangeNothing := by
  refine fun s p rest c => ⟨fun due => ?_, fun due => ?_⟩
  · have run : exec .takeQuery s = .next (queryTake p c { s with cmdQueue := rest }) :=
      exec_of_take s p rest c _ due queryTake
    rw [run]
    refine ⟨fun stale => ?_, fun r live => ⟨fun foreign other => ?_, fun admitted => ?_⟩⟩
    · rw [queryTake_stale p c { s with cmdQueue := rest } stale]
    · rw [queryTake_notOwner p c { s with cmdQueue := rest } r live foreign other]
    · rw [queryTake_done p c { s with cmdQueue := rest } r live admitted, queryBytes_eq]
  · have run : exec .takeQueryPort s = .next (queryPortTake s.supervisor c { s with cmdQueue := rest }) :=
      exec_of_takeSupervisor s rest c _ due queryPortTake
    rw [run]
    refine ⟨fun bad => ?_, fun q named => ?_⟩
    · rw [queryPortTake_badField _ c _ bad]
    · rw [queryPortTake_done _ c _ q named, s.portBytes_cmdQueue rest q]
      rfl

end Sys2Proof.Machine

namespace Sys2Proof.Machine

/-! # The take of DEMOTE -/

section
variable (p : Port) (c : Vector Byte 16) (s : State)

theorem demoteTake_badField (h : 8 ≤ field8 c 0x0B) : demoteTake p c s = s.refuse p .badField := by
  simp only [demoteTake, portField_none c h]

/-- The port named is not read: its state does not matter (R89, R182). -/
theorem demoteTake_done (q : Port) (h : field8 c 0x0B = q.val) :
    demoteTake p c s = State.complete { s with pointers := Vector.replicate 6 q } p .done 0 [] := by
  simp only [demoteTake, portField_some c q h]

end

/-- Settles O48: the port field names no port, or the port that every pointer then names. -/
theorem demoteSetsEveryPointer : Obligations.DemoteSetsEveryPointer := by
  intro s rest c due
  have run : exec .takeDemote s = .next (demoteTake s.supervisor c { s with cmdQueue := rest }) :=
    exec_of_takeSupervisor s rest c _ due demoteTake
  rw [run]
  refine ⟨fun bad => ?_, fun q named => ?_⟩
  · rw [demoteTake_badField _ c _ bad]
  · rw [demoteTake_done _ c _ q named]

end Sys2Proof.Machine

namespace Sys2Proof.Machine

/-! # A placement

`NoticeSet.insert` has three outcomes; each is stated once, and the placement of O30 is read off them (R189). -/

/-! ## One entry -/

theorem NoticeEntry.same_iff (k : NoticeKind) (x : Subject) (e : NoticeEntry) :
    e.same k x = true ↔ e.kind = k ∧ e.subject = x := by
  simp [NoticeEntry.same]

theorem NoticeEntry.bump_same (k : NoticeKind) (x : Subject) (e : NoticeEntry) (h : e.kind = k ∧ e.subject = x) :
    e.bump k x = { e with count := min 15 (e.count + 1) } :=
  if_pos ((e.same_iff k x).2 h)

theorem NoticeEntry.bump_other (k : NoticeKind) (x : Subject) (e : NoticeEntry) (h : ¬(e.kind = k ∧ e.subject = x)) :
    e.bump k x = e :=
  if_neg fun same => h ((e.same_iff k x).1 same)

/-! ## One set -/

section
variable (n : NoticeSet) (k : NoticeKind) (x : Subject)

/-- Entries of other kinds or subjects keep their counts. -/
theorem NoticeEntry.map_bump_other (l : List NoticeEntry) (h : ∀ y ∈ l, ¬(y.kind = k ∧ y.subject = x)) :
    l.map (NoticeEntry.bump k x) = l :=
  (List.map_congr_left fun y hy => y.bump_other k x (h y hy)).trans (List.map_id l)

theorem NoticeSet.any_same_false (h : ∀ y ∈ n.entries, ¬(y.kind = k ∧ y.subject = x)) :
    ¬n.entries.any (NoticeEntry.same k x) = true := by
  rw [List.any_eq_true]
  rintro ⟨y, hy, same⟩
  exact h y hy ((y.same_iff k x).1 same)

/-- The merge: the one entry of the kind and subject is counted up in its place. -/
theorem NoticeSet.insert_merge (pre post : List NoticeEntry) (e : NoticeEntry) (parts : n.entries = pre ++ e :: post)
    (own : e.kind = k ∧ e.subject = x) (others : ∀ y ∈ pre ++ post, ¬(y.kind = k ∧ y.subject = x)) :
    n.insert k x = { n with entries := pre ++ { e with count := min 15 (e.count + 1) } :: post } := by
  have found : n.entries.any (NoticeEntry.same k x) = true :=
    List.any_eq_true.2 ⟨e, by simp [parts], (e.same_iff k x).2 own⟩
  have before := NoticeEntry.map_bump_other k x pre fun y hy => others y (List.mem_append_left post hy)
  have after := NoticeEntry.map_bump_other k x post fun y hy => others y (List.mem_append_right pre hy)
  rw [NoticeSet.insert, if_pos found, parts, List.map_append, List.map_cons, before, after, e.bump_same k x own]

/-- The store: with room, a new entry stands last in the order of making. -/
theorem NoticeSet.insert_store (new : ∀ y ∈ n.entries, ¬(y.kind = k ∧ y.subject = x)) (room : n.entries.length < 16) :
    n.insert k x = { n with entries := n.entries ++ [{ kind := k, subject := x, count := 1 }] } := by
  rw [NoticeSet.insert, if_neg (n.any_same_false k x new)]
  exact if_pos room

/-- The overrun: without room, the indication alone is set. -/
theorem NoticeSet.insert_overrun (new : ∀ y ∈ n.entries, ¬(y.kind = k ∧ y.subject = x)) (full : 16 ≤ n.entries.length) :
    n.insert k x = { n with overrun := true } := by
  rw [NoticeSet.insert, if_neg (n.any_same_false k x new)]
  exact if_neg (Nat.not_lt.2 full)

/-- Whatever the outcome, the set then holds an item (R128). -/
theorem NoticeSet.insert_nonempty : (n.insert k x).nonempty = true := by
  rw [NoticeSet.nonempty_iff, NoticeSet.insert]
  split
  · rename_i found
    obtain ⟨e, he, -⟩ := List.any_eq_true.1 found
    exact .inl fun empty => List.ne_nil_of_mem he (List.map_eq_nil_iff.1 empty)
  · split
    · exact .inl (List.append_ne_nil_of_right_ne_nil _ (List.cons_ne_nil _ _))
    · exact .inr rfl

end

/-! ## The port's set and its line -/

section
variable (s : State) (p : Port) (k : NoticeKind) (x : Subject)

theorem State.place_detached (h : (s.port p).state = .detached) : s.place p k x = s :=
  if_pos h

theorem State.place_attached (h : (s.port p).state ≠ .detached) :
    s.place p k x = { s with notices := bankSet s.notices p ((bankGet s.notices p).insert k x) } :=
  if_neg h

/-- After a placement the enable alone decides NTFn (R128). -/
theorem State.ntfLine_place (h : (s.port p).state ≠ .detached) :
    (s.place p k x).ntfLine p = (!s.rstLow && (s.port p).ntfEnable) := by
  have held : (bankGet (s.place p k x).notices p).nonempty = true := by
    rw [s.place_notices p p k x, if_pos ⟨rfl, h⟩]
    exact NoticeSet.insert_nonempty _ k x
  rw [State.ntfLine, held, Bool.and_true, s.place_attached p k x h]
  rfl

/-- NTFn already stands as its enable says where the set holds an item, and is low where the enable is off. -/
theorem State.ntfLine_of_nonempty_or_off
    (h : (bankGet s.notices p).nonempty = true ∨ (s.port p).ntfEnable = false) :
    s.ntfLine p = (!s.rstLow && (s.port p).ntfEnable) := by
  rw [State.ntfLine]
  rcases h with held | off
  · rw [held, Bool.and_true]
  · rw [off, Bool.and_false, Bool.false_and]

end

/-- Settles O30: the placement is the insertion into the port's set, whose three outcomes and whose line are above. -/
theorem noticePlacementMergesStoresOrOverruns : Obligations.NoticePlacementMergesStoresOrOverruns := by
  refine fun s p k x => ⟨s.place_detached p k x, fun attached =>
    ⟨(bankGet s.notices p).insert k x, s.place_attached p k x attached, ?merge, ?store, ?overrun, ?raised, ?kept⟩⟩
  case merge =>
    exact fun pre e post parts kind subject others =>
      NoticeSet.insert_merge _ k x pre post e parts ⟨kind, subject⟩ others
  case store => exact fun new room => NoticeSet.insert_store _ k x new room
  case overrun => exact fun new full => NoticeSet.insert_overrun _ k x new full
  case raised =>
    intro high enabled
    rw [s.ntfLine_place p k x attached, high, enabled]
    rfl
  case kept =>
    intro held
    rw [s.ntfLine_place p k x attached, s.ntfLine_of_nonempty_or_off p held]

end Sys2Proof.Machine

namespace Sys2Proof.Machine

/-! # The step

One equation for each shape of the queue. The command of a nonempty queue runs on the state with the rest, so the queue
that it finds is the rest alone. -/

section
variable {s : State}

theorem step_of_pending_nil (h : s.pending = []) : step s = .next s := by
  simp only [step, h]

theorem step_of_pending_cons {c : Instr} {rest : List Instr} (h : s.pending = c :: rest) :
    step s = exec c { s with pending := rest } := by
  simp only [step, h]

end

/-- Settles O1: the two equations of the step, the first at a state whose queue was replaced by `c :: rest`. -/
theorem stepRunsFrontCommand : Obligations.StepRunsFrontCommand := by
  intro c rest s
  have front : step { s with pending := c :: rest } = exec c { s with pending := rest } :=
    step_of_pending_cons rfl
  exact ⟨front, step_of_pending_nil⟩

end Sys2Proof.Machine
